-- ==== Sys2Proof/Word.lean ====
section
/-! DEFINITION. The plain data every other file uses: bytes and 16-bit fields, arms, carrier IDs, and four like things
kept one per arm (or per cell, or per class). -/

namespace Sys2Proof

/-- One byte of a message, a frame or an image. -/
abbrev Byte := BitVec 8

/-- A two-byte field of a message or a frame. -/
abbrev Half := BitVec 16

/-- An arm of the junction, 0 to 3 counter-clockwise; arithmetic is mod 4 (R6, Conventions). Cells are numbered in the
same way. -/
abbrev Arm := Fin 4

/-- A carrier ID: 12 bits; 0 names no carrier (R22, R185). -/
abbrev CarrierId := BitVec 12

/-- Four like things, one for each arm, cell or load class. -/
structure Quad (α : Type) where
  q0 : α
  q1 : α
  q2 : α
  q3 : α
deriving DecidableEq, Repr

/-- The same thing four times. -/
def Quad.fill {α : Type} (a : α) : Quad α := ⟨a, a, a, a⟩

/-- The four things as a function of the number gives them. -/
def Quad.build {α : Type} (f : Arm → α) : Quad α := ⟨f 0, f 1, f 2, f 3⟩

/-- The thing at number `i`. -/
def Quad.get {α : Type} (q : Quad α) (i : Arm) : α :=
  match i with
  | 0 => q.q0
  | 1 => q.q1
  | 2 => q.q2
  | 3 => q.q3

/-- The four things with number `i` replaced. -/
def Quad.set {α : Type} (q : Quad α) (i : Arm) (a : α) : Quad α :=
  match i with
  | 0 => { q with q0 := a }
  | 1 => { q with q1 := a }
  | 2 => { q with q2 := a }
  | 3 => { q with q3 := a }

/-- Each of the four things under `f`. -/
def Quad.map {α β : Type} (f : α → β) (q : Quad α) : Quad β := ⟨f q.q0, f q.q1, f q.q2, f q.q3⟩

/-- The four things in the order of their numbers. -/
def Quad.toList {α : Type} (q : Quad α) : List α := [q.q0, q.q1, q.q2, q.q3]

/-- The four arms in ascending order. -/
def Arm.list : List Arm := [0, 1, 2, 3]

/-- `x` clamped into the range from `lo` to `hi`. -/
def clampTo (lo hi x : Nat) : Nat := max lo (min hi x)

end Sys2Proof
end

