-- ==== Sys2Proof/Syntax.lean ====
section
/-! DEFINITION. The commands of the JC44: one constructor for each row of spec/opcode_table.json, with the operands the
rules give the event (the table itself lists none). -/

namespace Sys2Proof

/-- A filtered input: an entry or exit detector, the box sensor, or the walkway button (R60, R144). -/
inductive Input where
  | ent (i : Arm)
  | ext (j : Arm)
  | box
  | button
deriving DecidableEq, Repr

/-- The raw levels of the filtered inputs at one moment; `true` is active, or pressed (R60, R144). -/
structure RawLevels where
  ent : Quad Bool
  ext : Quad Bool
  box : Bool
  button : Bool
deriving DecidableEq, Repr

/-- A report entry as it stands in a FLOOR REPORT: twelve bytes (R186). `codes` is byte 1 (role, kind, condition);
`lim` and `limEpoch` are the limit and its epoch from a lock end, the echo and its epoch from a far end. -/
structure RawEntry where
  address : Byte
  codes : Byte
  dir : Byte
  e : Byte
  x : Byte
  r : Byte
  demand : Byte
  occ : Byte
  capacity : Byte
  lim : Byte
  limEpoch : Byte
  ignored : Byte
deriving DecidableEq, Repr

/-- A good FLOOR REPORT (R115, R126, R186): its fields between the kind byte and the CRC. `status` is the node state and
hold byte. -/
structure FloorReport where
  sender : Byte
  epoch : Byte
  status : Byte
  entries : List RawEntry
deriving DecidableEq, Repr

/-- A good REPORT REQUEST (R116, R186). -/
structure ReportRequest where
  sender : Byte
  epoch : Byte
deriving DecidableEq, Repr

/-- The commands. -/
inductive Instr where
  /-- POWER_ON (R163). -/
  | powerOn
  /-- RST_N_ASSERT (R163). -/
  | rstNAssert
  /-- RST_N_DEASSERT (R163). -/
  | rstNDeassert
  /-- LOADING_COMPLETE (R165); `cfgLow`: CFG_N was low when LOADING sampled it (R166). -/
  | loadingComplete (cfgLow : Bool)
  /-- REFERENCE_STAGE (R167, R168); `osc`: the low 8 bits of the oscillator's free-running count at that moment; `raw`:
  the raw levels of the filtered inputs. Both are read only when LISTENING is entered. -/
  | referenceStage (osc : Byte) (raw : RawLevels)
  /-- REFERENCE_EDGE_MISSING (R167). -/
  | referenceEdgeMissing
  /-- CLOCK_LOSS (R169). -/
  | clockLoss
  /-- LISTENING_WINDOW_EXPIRY (R170). -/
  | listeningWindowExpiry
  /-- CROSSING_QUIET_EXPIRY (R171). -/
  | crossingQuietExpiry
  /-- RECHECK_EXPIRY (R174). -/
  | recheckExpiry
  /-- CONFIG_WRITE_COMPLETE (R166). -/
  | configWriteComplete
  /-- ARM_LINK_BYTE_GAP (R19) on the link of an arm. -/
  | armLinkByteGap (link : Arm)
  /-- ANNOUNCE (R26 to R29): the checked message's fields, as received (R185). -/
  | announce (link : Arm) (id : CarrierId) (cls : Fin 4) (priority : Bool) (exit : Arm) (length distance speed : Half)
  /-- POSITION (R30, R31). -/
  | position (link : Arm) (id : CarrierId) (distance speed : Half)
  /-- WITHDRAW (R32). -/
  | withdraw (link : Arm) (id : CarrierId)
  /-- SEND_CLEARANCE (R37): the item at the front of a link's send list. -/
  | sendClearance (link : Arm)
  /-- SEND_REFUSAL (R20): the item at the front of a link's send list. -/
  | sendRefusal (link : Arm)
  /-- CARRIER_MUTE (R34): a carrier's silence time reaches the carrier silence time. -/
  | carrierMute (id : CarrierId)
  /-- ARBITRATION_ROUND (R76). -/
  | arbitrationRound
  /-- DETECTOR_FILTER_CHANGE (R61, R144): the filtered level of an input changes. -/
  | detectorFilterChange (input : Input)
  /-- DETECTOR_FAULT (R62): the stuck timer of an input reaches the stuck time. -/
  | detectorFault (input : Input)
  /-- START_WINDOW_EXPIRY (R68): the start timer of a carrier's GRANTED entry expires. -/
  | startWindowExpiry (id : CarrierId)
  /-- CROSSING_STALL (R71): the clear timer of a carrier's CROSSING entry expires. -/
  | crossingStall (id : CarrierId)
  /-- HOLD_TIMER_EXPIRY (R100). -/
  | holdTimerExpiry (arm : Arm)
  /-- QUIET_PROOF (R108). -/
  | quietProof (arm : Arm)
  /-- FLOOR_REPORT_RECEIVED (R127, R138); `own`: this node sent every bit of the frame without a read-back mismatch. -/
  | floorReportReceived (frame : FloorReport) (own : Bool)
  /-- REPORT_REQUEST_RECEIVED (R127, R134). -/
  | reportRequestReceived (frame : ReportRequest) (own : Bool)
  /-- NEIGHBOUR_SILENT (R132): the silence time of an arm's neighbour record reaches the silence window. -/
  | neighbourSilent (arm : Arm)
  /-- LINE_IDLE (R114, R125). -/
  | lineIdle
  /-- RECEIVE_GAP (R125). -/
  | receiveGap
  /-- ATTEMPT_START (R120). -/
  | attemptStart
  /-- FRAME_SENT (R117). -/
  | frameSent
  /-- LOST_LINE (R121). -/
  | lostLine
  /-- BACKOFF_EXPIRY (R122). -/
  | backoffExpiry
  /-- PERIODIC_TIMER_EXPIRY (R118). -/
  | periodicTimerExpiry
  /-- SPACING_ELAPSED (R119). -/
  | spacingElapsed
  /-- LINE_FAULT (R124). -/
  | lineFault
  /-- INTERVAL_EXPIRY (R142). -/
  | intervalExpiry
  /-- WALKWAY_BLOCKED (R146). -/
  | walkwayBlocked
  /-- OPEN_TIMER_EXPIRY (R147). -/
  | openTimerExpiry
  /-- SETTLE_TIMER_EXPIRY (R158). -/
  | settleTimerExpiry
  /-- IDLE_FRAME (R176, R177): a transaction with the idle frame, of `bits` bits clocked. -/
  | idleFrame (bits : Nat)
  /-- BAD_COMMAND_FRAME (R177): a command frame that fails its checks; `code` is its first byte. -/
  | badCommandFrame (code : Byte)
  /-- READ_STATUS (R182). -/
  | readStatus
  /-- READ_EVENTS (R181). -/
  | readEvents
  /-- ACKNOWLEDGE_EVENTS (R181): the event set of three bytes (R187). -/
  | acknowledgeEvents (kinds : BitVec 24)
  /-- SET_MASK (R181): the enables, as an event set of three bytes. -/
  | setMask (enables : BitVec 24)
  /-- READ_QUEUE (R183): the arm byte, as sent. -/
  | readQueue (arm : Byte)
  /-- READ_CROSSING (R183). -/
  | readCrossing
  /-- READ_SEGMENT (R183). -/
  | readSegment (arm : Byte)
  /-- READ_NEIGHBOUR (R183). -/
  | readNeighbour (arm : Byte)
  /-- READ_CONFIG (R183). -/
  | readConfig
  /-- CLOSE_ARM (R3). -/
  | closeArm (arm : Byte)
  /-- OPEN_ARM (R5). -/
  | openArm (arm : Byte)
  /-- STOP (R160). -/
  | stop
  /-- RELEASE (R160). -/
  | release
  /-- CONFIRM_CLEAR_CROSSING (R172): CONFIRM CLEAR with the target 0x0F. -/
  | confirmClearCrossing
  /-- CONFIRM_CLEAR_ARM (R109): CONFIRM CLEAR with any other target byte. -/
  | confirmClearArm (target : Byte)
  /-- PURGE_CARRIER (R33): the carrier ID, all 16 bits significant (R187). -/
  | purgeCarrier (id : Half)
  /-- SET_WALKWAY (R141): P and W in s. -/
  | setWalkway (p : Half) (w : Byte)
  /-- WRITE_CONFIG (R166): the image. -/
  | writeConfig (image : List Byte)
  /-- RESTART (R178). -/
  | restart
  /-- ARM_LINK_MESSAGE_DISCARD (R19, R1) on the link of an arm. -/
  | armLinkMessageDiscard (link : Arm)
  /-- FLOOR_CHARACTER_RECEIVED (R125): a character, and whether its stop bit was read recessive. -/
  | floorCharacterReceived (char : Byte) (stopOk : Bool)
  /-- RESPONSE_READY (R177). -/
  | responseReady
deriving DecidableEq, Repr

end Sys2Proof
end

