-- ==== Sys2Proof/Decode.lean ====
section
/-! DEFINITION. The decoder over the table's bits. No row of spec/opcode_table.json gives bits ("fields" and "fixed" are
empty for each of the 65 rows), so no word spells a command. -/

namespace Sys2Proof

/-- The command that a word of the table spells: none, since the table gives no row any bits. -/
def decodeTableWord (_nbits _w : Nat) : Option Instr := none

end Sys2Proof
end

