-- ==== Sys2Proof/Config.lean ====
section
/-! DEFINITION. What an installation fixes: the working configuration as plain data (chapter 1, R7 to R13), and the one
value the spec leaves open that no field of State decides (the free value `Config.spurMarker`). -/

namespace Sys2Proof

/-- Segment kind of an arm (R9, R10). -/
inductive SegKind where
  | twoWay
  | oneWayUp
  | oneWayDown
deriving DecidableEq, Repr

/-- Walkway mode (R12, R140). -/
inductive WalkMode where
  | off
  | cyclic
  | onDemand
deriving DecidableEq, Repr

/-- Floor bit rate in kbit/s (R12, R113). -/
inductive BitRate where
  | k125
  | k250
  | k500
deriving DecidableEq, Repr

/-- Silence multiple (R12, R13). -/
inductive SilenceMultiple where
  | x3
  | x5
  | x8
deriving DecidableEq, Repr

/-- One speed zone: its outer boundary in cm and its limit in cm/s (R8). -/
structure Zone where
  bound : Nat
  limit : Nat
deriving DecidableEq, Repr

/-- The configuration of one arm (R1, R2, R8, R9). `zones` is the truncated table; its length is the `n` of R8. -/
structure ArmConfig where
  present : Bool
  inbound : Bool
  outbound : Bool
  queue : Bool
  walkway : Bool
  quietProof : Bool
  neighbour : Nat
  kind : SegKind
  capacity : Nat
  exitClearance : Nat
  quietTime : Nat
  zones : List Zone
deriving DecidableEq, Repr

/-- The configuration of one ordered pair of arms (R7). -/
structure PathConfig where
  permitted : Bool
  length : Nat
deriving DecidableEq, Repr

/-- The configuration of one load class (R11): deceleration in cm/s², class speed limit in cm/s. -/
structure ClassConfig where
  decel : Nat
  limit : Nat
deriving DecidableEq, Repr

/-- The working configuration (R12, and the parts above). Times are in the unit of the table of R12: `startWindow`,
`holdSettle`, `debounce`, `carrierSilence`, `reportInterval`, `changeSpacing` and `tLat` in ms, the other times in s. -/
structure JunctionConfig where
  nodeAddress : Nat
  xlim : Nat
  margin : Nat
  tLat : Nat
  headway : Nat
  startWindow : Nat
  clearTime : Nat
  platoon : Nat
  skipMax : Nat
  directionHold : Nat
  crossingProof : Bool
  crossingQuiet : Nat
  holdSettle : Nat
  debounce : Nat
  stuckTime : Nat
  carrierSilence : Nat
  boxFitted : Bool
  walkMode : WalkMode
  walkInterval : Nat
  walkOpen : Nat
  walkClearance : Nat
  bitRate : BitRate
  reportInterval : Nat
  changeSpacing : Nat
  silenceMultiple : SilenceMultiple
  refStage : Nat
  classes : Quad ClassConfig
  arms : Quad ArmConfig
  paths : Quad (Quad PathConfig)
deriving DecidableEq, Repr

/-- FREE VALUE (log 17): the byte that READ NEIGHBOUR returns for a spur as its "marker that it has no neighbour" (R183).
The spec gives no code for it. -/
opaque Config.spurMarker : Byte

end Sys2Proof
end

