-- ==== Sys2Proof/Machine/Layout.lean ====
section
/-! DEFINITION. Byte order and checks of chapter 13 (R184): two-byte fields, bits of a set, the CRC-8 of the arm links
and the CRC-16 of floor frames, maintenance frames and the configuration image. -/

namespace Sys2Proof.Layout

/-- The low byte of a number. -/
def byte (n : Nat) : Byte := BitVec.ofNat 8 n

/-- A number in two bytes, least significant byte first (R184). -/
def two (n : Nat) : List Byte := [BitVec.ofNat 8 n, BitVec.ofNat 8 (n / 256)]

/-- Byte `k` of a list, 0 beyond its end. -/
def byteAt (l : List Byte) (k : Nat) : Nat := (l.getD k 0).toNat

/-- The two-byte field at offset `k`, least significant byte first (R184). -/
def twoAt (l : List Byte) (k : Nat) : Nat := byteAt l k + 256 * byteAt l (k + 1)

/-- A flag or a yes/no value as a byte: 1 when it is set (log 16). -/
def flag (b : Bool) : Byte := if b then 1 else 0

/-- A set as a byte, one bit per member in the order given, from bit 0 (R187). -/
def bits : List Bool → Nat
  | [] => 0
  | b :: rest => (if b then 1 else 0) + 2 * bits rest

/-- One bit of the CRC-8 with generator x⁸+x²+x+1, most significant bit first (R184). -/
def crc8Bit (c : Byte) : Byte := if c.msb then (c <<< 1) ^^^ 0x07 else c <<< 1

/-- One byte of the CRC-8. -/
def crc8Byte (c b : Byte) : Byte :=
  crc8Bit (crc8Bit (crc8Bit (crc8Bit (crc8Bit (crc8Bit (crc8Bit (crc8Bit (c ^^^ b))))))))

/-- The CRC-8 of the arm links, initial value 0xFF (R19, R184). -/
def crc8 (l : List Byte) : Byte := l.foldl crc8Byte 0xFF

/-- One bit of the CRC-16 with generator x¹⁶+x¹²+x⁵+1, most significant bit first (R184). -/
def crc16Bit (c : Half) : Half := if c.msb then (c <<< 1) ^^^ 0x1021 else c <<< 1

/-- One byte of the CRC-16. -/
def crc16Byte (c : Half) (b : Byte) : Half :=
  crc16Bit (crc16Bit (crc16Bit (crc16Bit (crc16Bit (crc16Bit (crc16Bit (crc16Bit
    (c ^^^ (b.setWidth 16 <<< 8)))))))))

/-- The CRC-16 of floor frames, maintenance frames and the image, initial value 0xFFFF (R115, R184). -/
def crc16 (l : List Byte) : Half := l.foldl crc16Byte 0xFFFF

/-- A frame followed by its CRC-16, least significant byte first (R184). -/
def withCrc16 (l : List Byte) : List Byte := l ++ two (crc16 l).toNat

/-- A frame of at least two bytes whose last two are the CRC-16 of those before them. -/
def crc16Ok (l : List Byte) : Bool :=
  2 ≤ l.length && l == withCrc16 (l.take (l.length - 2))

end Sys2Proof.Layout
end

