-- ==== Sys2Proof/Machine/Image.lean ====
section
/-! DEFINITION. The configuration image: its layout (R188), its structural checks (R14, R15), the clamps and truncations
(R7 to R13), the default configuration (R17), and the layout of the working configuration (R188). -/

namespace Sys2Proof.Image

open Layout

/-- The length of an image in bytes (R188). -/
def size : Nat := 184

/-- The default configuration of an arm (R17). -/
def defaultArm : ArmConfig :=
  { present := false, inbound := false, outbound := false, queue := false, walkway := false, quietProof := false,
    neighbour := 0, kind := .twoWay, capacity := 1, exitClearance := 0, quietTime := 30, zones := [⟨1, 10⟩] }

/-- The default configuration of an ordered pair of arms (R17). -/
def defaultPath : PathConfig := { permitted := false, length := 100 }

/-- The default configuration (R17, with the defaults of R11 and R12). -/
def default : JunctionConfig :=
  { nodeAddress := 0, xlim := 100, margin := 30, tLat := 250, headway := 80, startWindow := 3000, clearTime := 20,
    platoon := 2, skipMax := 4, directionHold := 60, crossingProof := false, crossingQuiet := 30, holdSettle := 2000,
    debounce := 30, stuckTime := 60, carrierSilence := 600, boxFitted := false, walkMode := .off, walkInterval := 10,
    walkOpen := 0, walkClearance := 10, bitRate := .k125, reportInterval := 200, changeSpacing := 20,
    silenceMultiple := .x5, refStage := 1,
    classes := ⟨⟨120, 300⟩, ⟨100, 250⟩, ⟨80, 200⟩, ⟨60, 150⟩⟩,
    arms := .fill defaultArm, paths := .fill (.fill defaultPath) }

/-- The code of a segment kind (R188); an unused code is read as TWO_WAY. -/
def kindOf : Nat → SegKind
  | 1 => .oneWayUp
  | 2 => .oneWayDown
  | _ => .twoWay

def kindCode : SegKind → Nat
  | .twoWay => 0
  | .oneWayUp => 1
  | .oneWayDown => 2

/-- The code of a walkway mode (R188); other codes are read as OFF. -/
def modeOf : Nat → WalkMode
  | 1 => .cyclic
  | 2 => .onDemand
  | _ => .off

def modeCode : WalkMode → Nat
  | .off => 0
  | .cyclic => 1
  | .onDemand => 2

/-- The code of a bit rate (R188); other codes are read as 125. -/
def rateOf : Nat → BitRate
  | 1 => .k250
  | 2 => .k500
  | _ => .k125

def rateCode : BitRate → Nat
  | .k125 => 0
  | .k250 => 1
  | .k500 => 2

/-- The code of a silence multiple (R188); other codes are read as ×5. -/
def multipleOf : Nat → SilenceMultiple
  | 0 => .x3
  | 2 => .x8
  | _ => .x5

def multipleCode : SilenceMultiple → Nat
  | .x3 => 0
  | .x5 => 1
  | .x8 => 2

/-- Bit `k` of the byte at an offset. -/
def bitAt (l : List Byte) (offset k : Nat) : Bool := (byteAt l offset).testBit k

/-- An arm as the image writes it, its zone table not yet clamped (R188). -/
def readArm (l : List Byte) (b : Nat) : ArmConfig :=
  { present := bitAt l b 0, inbound := bitAt l b 1, outbound := bitAt l b 2, queue := bitAt l b 3,
    walkway := bitAt l b 4, quietProof := bitAt l b 5,
    neighbour := byteAt l (b + 1), kind := kindOf (byteAt l (b + 2)), capacity := byteAt l (b + 3),
    exitClearance := twoAt l (b + 4), quietTime := twoAt l (b + 6),
    zones := [⟨twoAt l (b + 8), twoAt l (b + 16)⟩, ⟨twoAt l (b + 10), twoAt l (b + 18)⟩,
      ⟨twoAt l (b + 12), twoAt l (b + 20)⟩, ⟨twoAt l (b + 14), twoAt l (b + 22)⟩] }

/-- A movement's flag and path length as the image writes them (R188). -/
def readPath (l : List Byte) (b : Nat) : PathConfig :=
  { permitted := byteAt l b != 0, length := twoAt l (b + 1) }

/-- The place of movement i→j among the twelve of the image (R188). -/
def pathIndex (i j : Arm) : Nat := 3 * i.val + (if j.val < i.val then j.val else j.val - 1)

/-- The image as written, every enumerated and yes/no field read by its codes (R184, R188). -/
def read (l : List Byte) : JunctionConfig :=
  { nodeAddress := byteAt l 0, xlim := twoAt l 1, margin := byteAt l 3, tLat := twoAt l 4, headway := twoAt l 6,
    startWindow := twoAt l 8, clearTime := byteAt l 10, platoon := byteAt l 11, skipMax := byteAt l 12,
    directionHold := twoAt l 13, crossingProof := byteAt l 15 != 0, crossingQuiet := twoAt l 16,
    holdSettle := twoAt l 18, debounce := byteAt l 20, stuckTime := byteAt l 21, carrierSilence := twoAt l 22,
    boxFitted := byteAt l 24 != 0, walkMode := modeOf (byteAt l 25), walkInterval := twoAt l 26,
    walkOpen := byteAt l 28, walkClearance := twoAt l 29, bitRate := rateOf (byteAt l 31),
    reportInterval := twoAt l 32, changeSpacing := twoAt l 34, silenceMultiple := multipleOf (byteAt l 36),
    refStage := byteAt l 37,
    classes := .build fun c => ⟨byteAt l (38 + 3 * c.val), twoAt l (39 + 3 * c.val)⟩,
    arms := .build fun i => readArm l (50 + 24 * i.val),
    paths := .build fun i => .build fun j =>
      if i = j then defaultPath else readPath l (146 + 3 * pathIndex i j) }

/-- The flow of a one-way segment at this end (R10, R15). -/
inductive Flow where
  | bothWays
  | away
  | toward
deriving DecidableEq, Repr

/-- The flow of an arm with own node address `own` (R10). A spur is two-way whatever its kind field holds. -/
def flow (own : Nat) (a : ArmConfig) : Flow :=
  if a.neighbour = 0 then .bothWays
  else match a.kind with
    | .twoWay => .bothWays
    | .oneWayUp => if own < a.neighbour then .away else .toward
    | .oneWayDown => if own < a.neighbour then .toward else .away

/-- An arm passes check 6 (R15). -/
def kindAgrees (own : Nat) (a : ArmConfig) : Bool :=
  match flow own a with
  | .bothWays => true
  | .toward => a.inbound && !a.outbound
  | .away => a.outbound && !a.inbound

/-- The present arms, in ascending order. -/
def presentArms (c : JunctionConfig) : List Arm := Arm.list.filter fun i => (c.arms.get i).present

/-- Two present arms name the same neighbour address other than 0 (check 4). -/
def sharedNeighbour (c : JunctionConfig) : Bool :=
  (presentArms c).any fun i => (presentArms c).any fun j =>
    i != j && (c.arms.get i).neighbour != 0 && (c.arms.get i).neighbour == (c.arms.get j).neighbour

/-- A permitted movement has an absent entry arm or an absent exit arm (check 7). -/
def pathOffArms (c : JunctionConfig) : Bool :=
  Arm.list.any fun i => Arm.list.any fun j =>
    i != j && ((c.paths.get i).get j).permitted && !((c.arms.get i).present && (c.arms.get j).present)

/-- The image passes the seven structural checks of R14. -/
def passes (c : JunctionConfig) : Bool :=
  (1 ≤ c.nodeAddress && c.nodeAddress ≤ 63)
  && (presentArms c).all (fun i => (c.arms.get i).neighbour ≤ 63)
  && (presentArms c).all (fun i => (c.arms.get i).neighbour != c.nodeAddress)
  && !sharedNeighbour c
  && 2 ≤ (presentArms c).length
  && (presentArms c).all (fun i => kindAgrees c.nodeAddress (c.arms.get i))
  && !pathOffArms c

/-- A zone's boundary and limit clamped into their ranges (R8). -/
def clampZone (z : Zone) : Zone := ⟨clampTo 1 65535 z.bound, clampTo 10 400 z.limit⟩

/-- The zones that exist behind a zone with boundary `b`: the first boundary not greater than its predecessor ends the
table (R8). -/
def zonesAfter (b : Nat) : List Zone → List Zone
  | [] => []
  | z :: rest => if b < z.bound then z :: zonesAfter z.bound rest else []

/-- The zone table clamped and then truncated; zone 0 always exists (R8). -/
def truncate (zones : List Zone) : List Zone :=
  match zones.map clampZone with
  | [] => [⟨1, 10⟩]
  | z :: rest => z :: zonesAfter z.bound rest

/-- An arm clamped (R8, R9); a spur's kind is read as TWO_WAY (R10); an absent arm is held as an arm of the default
configuration (R188). -/
def clampArm (a : ArmConfig) : ArmConfig :=
  if a.present then
    { a with
      kind := if a.neighbour = 0 then .twoWay else a.kind
      capacity := clampTo 1 15 a.capacity
      exitClearance := clampTo 0 3000 a.exitClearance
      quietTime := clampTo 10 600 a.quietTime
      zones := truncate a.zones }
  else defaultArm

/-- The working configuration made of an image that passed (R7 to R12, R14). -/
def clamp (c : JunctionConfig) : JunctionConfig :=
  let t := clampTo 100 1000 c.reportInterval
  { c with
    xlim := clampTo 10 400 c.xlim
    margin := clampTo 0 200 c.margin
    tLat := clampTo 0 1000 c.tLat
    headway := clampTo 20 500 c.headway
    startWindow := clampTo 500 10000 c.startWindow
    clearTime := clampTo 1 60 c.clearTime
    platoon := clampTo 0 7 c.platoon
    skipMax := clampTo 1 15 c.skipMax
    directionHold := clampTo 5 300 c.directionHold
    crossingQuiet := clampTo 10 600 c.crossingQuiet
    holdSettle := clampTo 500 10000 c.holdSettle
    debounce := clampTo 10 200 c.debounce
    stuckTime := clampTo 2 120 c.stuckTime
    carrierSilence := clampTo 200 2000 c.carrierSilence
    walkInterval := clampTo 10 600 c.walkInterval
    walkOpen := clampTo 0 120 c.walkOpen
    walkClearance := clampTo 10 300 c.walkClearance
    reportInterval := t
    changeSpacing := clampTo 20 t c.changeSpacing
    refStage := clampTo 1 5 c.refStage
    classes := c.classes.map fun k => ⟨clampTo 10 250 k.decel, clampTo 10 400 k.limit⟩
    arms := c.arms.map clampArm
    paths := c.paths.map fun row => row.map fun p => { p with length := clampTo 100 3000 p.length } }

/-- LOADING's test of an image (R14): its CRC first, then the structural checks; the working configuration when it
passes. -/
def load (image : List Byte) : Option JunctionConfig :=
  if image.length = size && crc16Ok image then
    let c := read image
    if passes c then some (clamp c) else none
  else none

/-- Zone `k` of a table, 0 and 0 beyond its end (R188). -/
def zoneAt (zones : List Zone) (k : Nat) : Zone := zones.getD k ⟨0, 0⟩

/-- The 24 bytes of an arm (R188). -/
def armBytes (a : ArmConfig) : List Byte :=
  [byte (bits [a.present, a.inbound, a.outbound, a.queue, a.walkway, a.quietProof]), byte a.neighbour,
    byte (kindCode a.kind), byte a.capacity]
  ++ two a.exitClearance ++ two a.quietTime
  ++ two (zoneAt a.zones 0).bound ++ two (zoneAt a.zones 1).bound
  ++ two (zoneAt a.zones 2).bound ++ two (zoneAt a.zones 3).bound
  ++ two (zoneAt a.zones 0).limit ++ two (zoneAt a.zones 1).limit
  ++ two (zoneAt a.zones 2).limit ++ two (zoneAt a.zones 3).limit

/-- The three bytes of a movement (R188). -/
def pathBytes (p : PathConfig) : List Byte := flag p.permitted :: two p.length

/-- The movements in the order of the image (R188). -/
def pathOrder : List (Arm × Arm) :=
  [(0, 1), (0, 2), (0, 3), (1, 0), (1, 2), (1, 3), (2, 0), (2, 1), (2, 3), (3, 0), (3, 1), (3, 2)]

/-- The junction constants, offsets 0 to 37 (R188). -/
def constantBytes (c : JunctionConfig) : List Byte :=
  [byte c.nodeAddress] ++ two c.xlim ++ [byte c.margin] ++ two c.tLat ++ two c.headway ++ two c.startWindow
  ++ [byte c.clearTime, byte c.platoon, byte c.skipMax] ++ two c.directionHold ++ [flag c.crossingProof]
  ++ two c.crossingQuiet ++ two c.holdSettle ++ [byte c.debounce, byte c.stuckTime] ++ two c.carrierSilence
  ++ [flag c.boxFitted, byte (modeCode c.walkMode)] ++ two c.walkInterval ++ [byte c.walkOpen]
  ++ two c.walkClearance ++ [byte (rateCode c.bitRate)] ++ two c.reportInterval ++ two c.changeSpacing
  ++ [byte (multipleCode c.silenceMultiple), byte c.refStage]

/-- Bytes 0 to 181 of the layout of a working configuration (R188). -/
def body (c : JunctionConfig) : List Byte :=
  constantBytes c
  ++ c.classes.toList.flatMap (fun k => byte k.decel :: two k.limit)
  ++ c.arms.toList.flatMap armBytes
  ++ pathOrder.flatMap (fun p => pathBytes ((c.paths.get p.1).get p.2))

/-- The CRC-16 of the working configuration (R165, R188). -/
def crc (c : JunctionConfig) : Half := crc16 (body c)

/-- The 184 bytes of a working configuration, as READ CONFIG returns them (R188). -/
def bytes (c : JunctionConfig) : List Byte := withCrc16 (body c)

end Sys2Proof.Image
end

