-- ==== Sys2Proof/Machine/Blocks.lean ====
section
/-! DEFINITION. The state of each of the eleven blocks (00_scope.md, Blocks) as plain data, and the value each takes after
every restart. -/

namespace Sys2Proof.Machine

/-- A timer: stopped, running with the milliseconds it has run (counted on the empty queue, log 1), or expired. -/
inductive Timer where
  | stopped
  | running (elapsed : Nat)
  | expired
deriving DecidableEq, Repr

/-! ## SCU (chapter 11) -/

/-- The part state (R164). -/
inductive PartState where
  | loading
  | unconfigured
  | settling
  | listening
  | recovering
  | running
  | faulted
deriving DecidableEq, Repr

/-- The restart cause (R163). -/
inductive RestartCause where
  | powerOn
  | resetPin
  | command
deriving DecidableEq, Repr

/-- The load outcome; "none until LOADING ends" is `none` (R163, R165, R166). -/
inductive LoadOutcome where
  | none
  | loaded
  | refused
  | bypassed
deriving DecidableEq, Repr

/-- The configuration store (R165, R166). -/
inductive Store where
  | neverWritten
  | partlyWritten
  | written (image : List Byte)
deriving DecidableEq, Repr

/-- Start and clock unit (R163, R167 to R174). -/
structure Scu where
  part : PartState
  cause : RestartCause
  load : LoadOutcome
  /-- The timebase is the external reference; otherwise the internal oscillator. -/
  onReference : Bool
  refCount : Nat
  stages : Nat
  epoch : Byte
  /-- The clock monitor watches the reference (R167, R169). -/
  monitor : Bool
  /-- The low 8 bits of the oscillator's free-running count, as last read (R168, log 4). -/
  osc : Byte
  cfg : JunctionConfig
  cfgCrc : Option Half
  listening : Timer
  crossingQuiet : Timer
  recheck : Timer
  store : Store
  /-- The image being written into the store (R166). -/
  writing : Option (List Byte)
  /-- RST_N is asserted (R163). -/
  rstHeld : Bool
deriving DecidableEq, Repr

/-- SCU after a restart (R163). The oscillator's count, the store and the pin are no part of it and are given. -/
def Scu.initial (cause : RestartCause) (osc : Byte) (store : Store) (rstHeld : Bool) : Scu :=
  { part := .loading, cause := cause, load := .none, onReference := false, refCount := 0, stages := 0, epoch := 0,
    monitor := false, osc := osc, cfg := Image.default, cfgCrc := none, listening := .stopped,
    crossingQuiet := .stopped, recheck := .stopped, store := store, writing := none, rstHeld := rstHeld }

/-! ## AQU (chapter 2) -/

/-- The state of a carrier record (R23). -/
inductive CarrierState where
  | waiting
  | granted
  | lapsed
  | mute
deriving DecidableEq, Repr

/-- A carrier record (R22). `silence` is the time since the last accepted message in ms. -/
structure Carrier where
  id : CarrierId
  arrival : Arm
  cls : Fin 4
  priority : Bool
  exit : Arm
  length : Nat
  distance : Nat
  speed : Nat
  silence : Nat
  state : CarrierState
  silent : Bool
  skip : Nat
  overdue : Bool
deriving DecidableEq, Repr

/-- The reasons of a REFUSAL (R185). -/
inductive RefusalReason where
  | armClosed
  | noRoute
  | duplicate
  | armFull
  | unknown
  | notReady
  | committed
  | badField
deriving DecidableEq, Repr

/-- An item of a send list (R20). -/
inductive SendItem where
  | clearance (id : CarrierId)
  | refusal (id : CarrierId) (reason : RefusalReason)
deriving DecidableEq, Repr

/-- A message the part sends on an arm link (R37, R185). `go` is the state GO, otherwise HOLD. -/
inductive LinkMessage where
  | clearance (id : CarrierId) (go : Bool) (place authority ceiling : Nat)
  | refusal (id : CarrierId) (reason : RefusalReason)
deriving DecidableEq, Repr

/-- The receiver of an arm link (R18): `message` holds the bytes of the message in progress, and is absent while the
receiver hunts for the sync byte. `ended` counts the messages that the receiver has read to their end and whose rows still
wait in the queue of commands (log 7). -/
structure LinkReceiver where
  message : Option (List Byte)
  ended : Nat
deriving DecidableEq, Repr

/-- The receiver of an arm link after a restart: hunting (R18). -/
def LinkReceiver.initial : LinkReceiver := { message := none, ended := 0 }

/-- Approach queue unit. -/
structure Aqu where
  queues : Quad (List Carrier)
  sends : Quad (List SendItem)
  linkTx : Quad (Option LinkMessage)
  linkRx : Quad LinkReceiver
deriving DecidableEq, Repr

/-- AQU after a restart (R18, R20, R22). -/
def Aqu.initial : Aqu :=
  { queues := .fill [], sends := .fill [], linkTx := .fill none, linkRx := .fill .initial }

/-! ## Arms (chapter 1) -/

/-- The closure cause set of an arm (R3). -/
structure Closure where
  operator : Bool
  detector : Bool
deriving DecidableEq, Repr

/-! ## XU (chapter 4) -/

/-- A cell record (R51): its state, with the holder or the reserved-for carrier where there is one. -/
inductive Cell where
  | free
  | held (holder : Arm)
  | reserved (carrier : CarrierId)
  | emergency
  | unknown
deriving DecidableEq, Repr

/-- The status of an entry of a carrier list, with its timer and flag (R56). -/
inductive EntryStatus where
  | granted (start : Timer) (deferred : Bool)
  | crossing (clear : Timer) (stalled : Bool)
deriving DecidableEq, Repr

/-- An entry of a carrier list (R56). -/
structure Entry where
  id : CarrierId
  cls : Fin 4
  status : EntryStatus
deriving DecidableEq, Repr

/-- A movement record (R55). The record is kept under its entry arm; its cell set is that of R6. -/
structure Movement where
  exit : Arm
  carriers : List Entry
  followOns : Nat
  rescued : Bool
deriving DecidableEq, Repr

/-- The source of an unmatched entry (R65). -/
inductive Source where
  | entry
  | box
deriving DecidableEq, Repr

/-- An entry of the unmatched list (R65); ID 0 is not known. -/
structure Unmatched where
  id : CarrierId
  arrival : Option Arm
  exit : Option Arm
  source : Source
deriving DecidableEq, Repr

/-- The debouncing of a filtered input (R61): its filtered level, its raw level as last told, and the time for which the
two have differed without a break. -/
structure Debounce where
  level : Bool
  raw : Bool
  timer : Timer
deriving DecidableEq, Repr

/-- The debouncing of an input after a restart: inactive (R60), the raw level taken as inactive (log 5). -/
def Debounce.initial : Debounce := { level := false, raw := false, timer := .stopped }

/-- The filter of a detector or of the box sensor (R60 to R62). -/
structure Filter where
  input : Debounce
  stuckTimer : Timer
  stuck : Bool
deriving DecidableEq, Repr

/-- A filter after a restart (R60, R62). -/
def Filter.initial : Filter := { input := .initial, stuckTimer := .stopped, stuck := false }

/-- The filtered level. -/
def Filter.level (f : Filter) : Bool := f.input.level

/-- Crossing unit. -/
structure Xu where
  cells : Quad Cell
  moves : Quad (Option Movement)
  unmatched : List Unmatched
  ent : Quad Filter
  ext : Quad Filter
  box : Filter
deriving DecidableEq, Repr

/-- XU after a restart (R51, R55, R60, R62, R65). -/
def Xu.initial : Xu :=
  { cells := .fill .unknown, moves := .fill none, unmatched := [], ent := .fill .initial, ext := .fill .initial,
    box := .initial }

/-! ## JAR (chapter 5) -/

/-- A layer of heads (R74, R80). -/
inductive Layer where
  | priority
  | normal
deriving DecidableEq, Repr

/-- A pair of arms (R74). -/
inductive ArmPair where
  | arms01
  | arms23
deriving DecidableEq, Repr

/-- The arm of a pair that its switch points to: S3 stands at arm 0 or 1, S4 at arm 2 or 3 (R74). -/
inductive Side where
  | lower
  | upper
deriving DecidableEq, Repr

/-- The overdue designation (R74); its cell set is that of (arrival, exit) by R6. -/
structure Overdue where
  id : CarrierId
  arrival : Arm
  exit : Arm
deriving DecidableEq, Repr

/-- Junction arbiter (R74). -/
structure Jar where
  s1 : Layer
  s2 : ArmPair
  s3 : Side
  s4 : Side
  overdue : Option Overdue
  due : Bool
deriving DecidableEq, Repr

/-- JAR after a restart (R74). -/
def Jar.initial : Jar :=
  { s1 := .priority, s2 := .arms01, s3 := .lower, s4 := .lower, overdue := none, due := false }

/-! ## SGU (chapter 6) -/

/-- The role of a segment end (R91). -/
inductive Role where
  | lock
  | far
  | spur
deriving DecidableEq, Repr

/-- The condition of a segment end (R90). -/
inductive Condition where
  | active
  | isolated
  | unsure
deriving DecidableEq, Repr

/-- The direction of a lock end (R100). -/
inductive Direction where
  | free
  | outbound
  | inbound
  | draining
  | closing
deriving DecidableEq, Repr

/-- The last direction of a lock end (R90). -/
inductive LastDirection where
  | outbound
  | inbound
deriving DecidableEq, Repr

/-- A segment-end record (R90). `limN` and `limEpN` are limit_n and its epoch at a far end, echo_n and its epoch at a
lock end. The role (R91), the condition and the validity of the held limit (R99) are computed. -/
structure SegEnd where
  e : Byte
  x : Byte
  r : Nat
  occ : Nat
  unsure : Bool
  isolated : Bool
  eN : Byte
  xN : Byte
  rN : Nat
  demN : Nat
  occN : Nat
  capN : Option Nat
  condN : Option Condition
  dirN : Option Direction
  limN : Byte
  limEpN : Byte
  dir : Direction
  last : LastDirection
  limit : Byte
  limitEpoch : Byte
  hold : Timer
  quiet : Timer
  heldLimit : Byte
  heldEpoch : Byte
deriving DecidableEq, Repr

/-- A segment-end record after a restart (R90), for an arm with or without a neighbour. -/
def SegEnd.initial (hasNeighbour : Bool) : SegEnd :=
  { e := 0, x := 0, r := 0, occ := 0, unsure := true, isolated := hasNeighbour, eN := 0, xN := 0, rN := 0, demN := 0,
    occN := 0, capN := none, condN := none, dirN := none, limN := 0, limEpN := 0, dir := .free, last := .inbound,
    limit := 0, limitEpoch := 0, hold := .stopped, quiet := .stopped, heldLimit := 0, heldEpoch := 0 }

/-! ## NBM (chapter 8) -/

/-- The state of a neighbour record (R129). -/
inductive NeighbourState where
  | awaited
  | live
  | silent
deriving DecidableEq, Repr

/-- The base state of a neighbour record (R129, R135). -/
inductive BaseState where
  | none
  | current
  | newEpoch
deriving DecidableEq, Repr

/-- The mismatch of a neighbour record (R129, R136). -/
inductive Mismatch where
  | none
  | noEntry
  | kind
deriving DecidableEq, Repr

/-- The node state a FLOOR REPORT carries (R115, R186). -/
inductive NodeState where
  | recovering
  | running
  | faulted
deriving DecidableEq, Repr

/-- A neighbour record (R129). The neighbour address is the arm's configuration's. -/
structure Neighbour where
  state : NeighbourState
  epoch : Option Byte
  base : BaseState
  silence : Nat
  late : Bool
  mismatch : Mismatch
  capFlag : Bool
  node : Option (NodeState × Bool)
  entry : Option RawEntry
deriving DecidableEq, Repr

/-- A neighbour record after a restart (R129). -/
def Neighbour.initial : Neighbour :=
  { state := .awaited, epoch := none, base := .none, silence := 0, late := false, mismatch := .none, capFlag := false,
    node := none, entry := none }

/-! ## FLI (chapter 7) -/

/-- The transmitter state (R117). -/
inductive TxState where
  | idle
  | waiting
  | sending
  | backoff
deriving DecidableEq, Repr

/-- The two kinds of floor frame (R113). -/
inductive FrameKind where
  | report
  | request
deriving DecidableEq, Repr

/-- The transmitter (R115, R117). `spacing` is running or expired (elapsed). `backoffBits` is the length of the backoff
in bit times (R122); `attemptAt` and `lastStart` are times of the model's clock. -/
structure Transmitter where
  state : TxState
  pending : Option FrameKind
  attempts : Nat
  changeWaiting : Bool
  periodic : Timer
  spacing : Timer
  lastStart : Option Nat
  backoff : Timer
  backoffBits : Nat
  lineFault : Timer
  faultRaised : Bool
  build : List Byte
  attemptAt : Nat
deriving DecidableEq, Repr

/-- The transmitter after a restart (R117). -/
def Transmitter.initial : Transmitter :=
  { state := .idle, pending := none, attempts := 0, changeWaiting := false, periodic := .stopped, spacing := .expired,
    lastStart := none, backoff := .stopped, backoffBits := 0, lineFault := .stopped, faultRaised := false, build := [],
    attemptAt := 0 }

/-- The receiver state (R125). -/
inductive RxState where
  | hunt
  | ready
  | frame
  | tail
deriving DecidableEq, Repr

/-- A frame that passed the checks of R126 and waits to be sorted (R127). -/
inductive GoodFrame where
  | report (f : FloorReport) (own : Bool)
  | request (f : ReportRequest) (own : Bool)
deriving DecidableEq, Repr

/-- The receiver (R113, R114, R125). `rows` counts the rows of the bits it has read that still wait in the queue of
commands (log 7). -/
structure Receiver where
  state : RxState
  buffer : List Byte
  /-- The bit times for which the line has been recessive without a break (R114). -/
  rest : Nat
  /-- The bits read of the character in progress, recessive as true; absent while none is in progress (R113). -/
  bits : Option (List Bool)
  /-- The bit times of rest since the end of the last character (R125). -/
  pause : Nat
  /-- The rows that the bits read have put into the queue and that still wait there (log 7). -/
  rows : Nat
  /-- The frame being read is this node's own, sent to its end without a mismatch (R127). -/
  sentWhole : Bool
  good : List GoodFrame
deriving DecidableEq, Repr

/-- The receiver after a restart (R114, R125). -/
def Receiver.initial : Receiver :=
  { state := .hunt, buffer := [], rest := 0, bits := none, pause := 0, rows := 0, sentWhole := false, good := [] }

/-- Floor line interface. -/
structure Fli where
  tx : Transmitter
  rx : Receiver
deriving DecidableEq, Repr

/-- FLI after a restart. -/
def Fli.initial : Fli := { tx := .initial, rx := .initial }

/-! ## WKP (chapter 9) -/

/-- The walkway state (R140). -/
inductive WalkState where
  | closed
  | closing
  | opened
deriving DecidableEq, Repr

/-- Walkway phaser (R140). Times in s. -/
structure Wkp where
  state : WalkState
  request : Bool
  stagedP : Nat
  stagedW : Nat
  latchedP : Nat
  latchedW : Nat
  interval : Timer
  clearance : Timer
  opening : Timer
  button : Debounce
deriving DecidableEq, Repr

/-- WKP after a restart, with the working configuration's P and W (R140). -/
def Wkp.initial (cfg : JunctionConfig) : Wkp :=
  { state := .closed, request := false, stagedP := cfg.walkInterval, stagedW := cfg.walkOpen,
    latchedP := cfg.walkInterval, latchedW := cfg.walkOpen, interval := .stopped, clearance := .stopped,
    opening := .stopped, button := .initial }

/-! ## HLD (chapter 10) -/

/-- Hold unit: the hold-cause set and the settle timer (R151). -/
structure Hld where
  overrun : Bool
  unauthorised : Bool
  operator : Bool
  settle : Timer
deriving DecidableEq, Repr

/-- HLD after a restart (R151). -/
def Hld.initial : Hld := { overrun := false, unauthorised := false, operator := false, settle := .stopped }

/-! ## MTP (chapter 12) -/

/-- The reasons of a REFUSED response (R187). -/
inductive Reason where
  | wrongState
  | notClear
  | notLockEnd
  | badArgument
deriving DecidableEq, Repr

/-- A response (R177, R187): its status, the code it answers, and its reason or data. -/
inductive Response where
  | none
  | notReady
  | ok (code : Byte)
  | refused (code : Byte) (reason : Reason)
  | data (code : Byte) (content : List Byte)
deriving DecidableEq, Repr

/-- The command and response buffer (R177). -/
inductive Buffer where
  | empty
  | busy (response : Response)
  | ready (response : Response)
deriving DecidableEq, Repr

/-- A transaction in progress (R176): the bits sampled on SDI, the first one first, and the response stream that SDO
carries, which the buffer's state at its beginning has set (R177, log 30). -/
structure Transaction where
  sdi : List Bool
  stream : Response
deriving DecidableEq, Repr

/-- Maintenance port (R176, R177, R180). Bit k − 1 of `flags` and of `mask` is the event kind of priority k. `sdo` is the
response stream of the last judged transaction (log 20). `carried` holds the streams of the transactions that have ended and
whose rows still wait in the queue of commands, the first one first (log 30). -/
structure Mtp where
  flags : BitVec 18
  mask : BitVec 18
  buffer : Buffer
  sdo : Response
  transaction : Option Transaction
  carried : List Response
deriving DecidableEq, Repr

/-- MTP after a restart (R177, R180); a transaction in progress is broken off (R176). -/
def Mtp.initial : Mtp :=
  { flags := 0, mask := BitVec.allOnes 18, buffer := .empty, sdo := .none, transaction := none, carried := [] }

end Sys2Proof.Machine
end

