-- ==== Sys2Proof/Machine/State.lean ====
section
/-! DEFINITION. The state of the JC44: the state of its eleven blocks, each owning its own (00_scope.md, Blocks), the
closure cause sets of the arms (R3), the model's clock, and the queue of commands; why a step can stop; the machine after
reset. -/

namespace Sys2Proof.Machine

/-- The state. Plain data: two states can be compared and written out. -/
structure State where
  scu : Scu
  aqu : Aqu
  closures : Quad Closure
  xu : Xu
  jar : Jar
  segs : Quad SegEnd
  nbrs : Quad Neighbour
  fli : Fli
  wkp : Wkp
  hld : Hld
  mtp : Mtp
  /-- The model's own clock, in ms (log 26). -/
  now : Nat
  /-- The commands that are waiting, the oldest first. -/
  pending : List Instr
deriving DecidableEq, Repr

/-- Why a step faults: no rule of the spec stops the part, so there is no reason. (FAULTED, R161, is a part state and not
a stop.) Raised by nobody; safe. -/
inductive Fault where
deriving DecidableEq, Repr

/-- Why a step is refused. -/
inductive Refusal where
  /-- The command has no meaning in the model. Raised only by an arm of exec that is still refused by name (there is none
  left); safe. -/
  | notModelled (mnemonic : String)
deriving DecidableEq, Repr

/-- The part after a restart: every block at its restart values (R163). What a restart does not return is given: the
cause, the oscillator's count, the store, the level of RST_N, the clock and the queue. -/
def State.fresh (cause : RestartCause) (osc : Byte) (store : Store) (rstHeld : Bool) (now : Nat)
    (pending : List Instr) : State :=
  { scu := .initial cause osc store rstHeld
    aqu := .initial
    closures := .fill ⟨false, false⟩
    xu := .initial
    jar := .initial
    segs := .fill (.initial false)
    nbrs := .fill .initial
    fli := .initial
    wkp := .initial Image.default
    hld := .initial
    mtp := .initial
    now := now
    pending := pending }

/-- The machine right after reset: a power-on restart with RST_N not asserted (log 18), a store never written (log 6),
LOADING not yet ended, and no command waiting (R163). -/
def State.reset : State := .fresh .powerOn 0 .neverWritten false 0 []

end Sys2Proof.Machine
end

