-- ==== Sys2Proof/Machine/Flags.lean ====
section
/-! DEFINITION. The eighteen event kinds, their flags and mask (R180, R181), the first pending event and ATTN_N (R182). -/

namespace Sys2Proof.Machine

/-- The event kinds in the priority order of R180. -/
inductive EventKind where
  | configFault
  | clockLoss
  | addressClash
  | overrun
  | unauthorisedEntry
  | crossingStall
  | countInconsistent
  | neighbourSilent
  | neighbourRestart
  | configMismatch
  | detectorFault
  | phantomExit
  | grantLapse
  | carrierMute
  | walkwayBlocked
  | lineFault
  | capacityMismatch
  | rescue
deriving DecidableEq, Repr

/-- The bit of an event kind in an event set: k − 1 for the kind of priority k (R187). -/
def EventKind.bit : EventKind → Nat
  | .configFault => 0
  | .clockLoss => 1
  | .addressClash => 2
  | .overrun => 3
  | .unauthorisedEntry => 4
  | .crossingStall => 5
  | .countInconsistent => 6
  | .neighbourSilent => 7
  | .neighbourRestart => 8
  | .configMismatch => 9
  | .detectorFault => 10
  | .phantomExit => 11
  | .grantLapse => 12
  | .carrierMute => 13
  | .walkwayBlocked => 14
  | .lineFault => 15
  | .capacityMismatch => 16
  | .rescue => 17

/-- The event set that holds one kind. -/
def EventKind.mask (k : EventKind) : BitVec 18 := BitVec.twoPow 18 k.bit

/-- Raise an event: its flag is set, whatever its mask bit (R180). -/
def State.raise (k : EventKind) (s : State) : State :=
  { s with mtp := { s.mtp with flags := s.mtp.flags ||| k.mask } }

/-- An event's flag is set. -/
def State.flagged (s : State) (k : EventKind) : Bool := s.mtp.flags.getLsbD k.bit

/-- The flags whose mask bit is enabled. -/
def State.enabledFlags (s : State) : BitVec 18 := s.mtp.flags &&& s.mtp.mask

/-- The bit of the first pending event (R182): the enabled, set flag that stands highest in the priority order. -/
def State.firstPending (s : State) : Option Nat :=
  (List.range 18).find? fun k => s.enabledFlags.getLsbD k

/-- ATTN_N is asserted (R182). While RST_N is asserted no flag is set, so it is released. -/
def State.attention (s : State) : Bool := s.firstPending.isSome

/-- An event set of three bytes lies in its coded range: no bit from 18 to 23 is set (R187). -/
def eventSetInRange (set : BitVec 24) : Bool := set.toNat < 2 ^ 18

end Sys2Proof.Machine
end

