-- ==== Sys2Proof/Machine/Operands.lean ====
section
/-! DEFINITION. What the blocks read: the configuration of an arm, the attributes as they read at runtime (R2, R3), cell
sets (R6), queues and heads (R25), demand (R35), roles and conditions (R90, R91), the hold and the outputs (R73, R147,
R151), and what times timers run for. Nothing here changes state. -/

namespace Sys2Proof.Machine

/-! ## Configuration and part state -/

/-- The working configuration. -/
def State.cfg (s : State) : JunctionConfig := s.scu.cfg

/-- The configuration of an arm. -/
def State.arm (s : State) (i : Arm) : ArmConfig := s.cfg.arms.get i

/-- The part state. -/
def State.part (s : State) : PartState := s.scu.part

/-- The arm is present (R1). -/
def State.present (s : State) (i : Arm) : Bool := (s.arm i).present

/-- The arm is present and has a neighbour, so a neighbour record and a report entry (R1, R112, R129). -/
def State.hasNeighbour (s : State) (i : Arm) : Bool := s.present i && (s.arm i).neighbour != 0

/-- The part states in which filters run, segment ends take counts, and FLI and NBM work (R60, R90, R128, R130). -/
def PartState.working : PartState → Bool
  | .loading => false
  | .unconfigured => false
  | .settling => false
  | .listening => true
  | .recovering => true
  | .running => true
  | .faulted => true

/-- The part states in which FLOOR REPORTs are sent (R128). -/
def PartState.reporting : PartState → Bool
  | .loading => false
  | .unconfigured => false
  | .settling => false
  | .listening => false
  | .recovering => true
  | .running => true
  | .faulted => true

/-- The part states in which MTP accepts the acting commands (R178). -/
def PartState.acting (p : PartState) : Bool := p.working

/-- The silence window: the silence multiple times T, in ms (R13, R132, R170). -/
def silenceWindow (c : JunctionConfig) : Nat :=
  (match c.silenceMultiple with
   | .x3 => 3
   | .x5 => 5
   | .x8 => 8) * c.reportInterval

/-- One bit time of the floor line in µs (R113). -/
def bitTime (c : JunctionConfig) : Nat :=
  match c.bitRate with
  | .k125 => 8
  | .k250 => 4
  | .k500 => 2

/-! ## Timers -/

/-- The timer is running. -/
def Timer.isRunning : Timer → Bool
  | .stopped => false
  | .running _ => true
  | .expired => false

/-- The timer is running and has run for `ms` milliseconds. -/
def Timer.reached (ms : Nat) : Timer → Bool
  | .stopped => false
  | .running elapsed => ms ≤ elapsed
  | .expired => false

/-- One millisecond passes for a timer. -/
def Timer.tick : Timer → Timer
  | .stopped => .stopped
  | .running elapsed => .running (elapsed + 1)
  | .expired => .expired

/-! ## Attributes, cells and movements -/

/-- The closure cause set of an arm is not empty (R3). -/
def State.closed (s : State) (i : Arm) : Bool := (s.closures.get i).operator || (s.closures.get i).detector

/-- INBOUND as it reads at runtime: 0 on an absent arm and on a closed one (R1, R3). -/
def State.inbound (s : State) (i : Arm) : Bool := s.present i && (s.arm i).inbound && !s.closed i

/-- OUTBOUND as it reads at runtime (R1, R3). -/
def State.outbound (s : State) (i : Arm) : Bool := s.present i && (s.arm i).outbound && !s.closed i

/-- The queue capacity of an arm, from its configured attributes (R2, R25). -/
def State.queueCapacity (s : State) (i : Arm) : Nat :=
  if s.present i && (s.arm i).inbound then (if (s.arm i).queue then 4 else 1) else 0

/-- The configuration of the movement from `i` to `j` (R7). -/
def State.path (s : State) (i j : Arm) : PathConfig := (s.cfg.paths.get i).get j

/-- The movement from `i` to `j` is permitted (R7). -/
def State.permitted (s : State) (i j : Arm) : Bool := i != j && (s.path i j).permitted

/-- The cell set of the movement from `i` to `j`: cells i, i+1 and so on up to j−1, mod 4 (R6). -/
def cellSet (i j : Arm) : List Arm :=
  match j - i with
  | 0 => []
  | 1 => [i]
  | 2 => [i, i + 1]
  | 3 => [i, i + 1, i + 2]

/-- Two cell sets have a cell in common. -/
def cellsMeet (a b : List Arm) : Bool := a.any fun k => b.contains k

/-- The state of cell `k`. -/
def State.cell (s : State) (k : Arm) : Cell := s.xu.cells.get k

/-- Cell `k` can be taken by a grant to carrier `id`: FREE, or RESERVED for that carrier (R51, R57). -/
def Cell.takable (id : CarrierId) : Cell → Bool
  | .free => true
  | .held _ => false
  | .reserved c => c == id
  | .emergency => false
  | .unknown => false

/-- Every cell of the movement from `i` to `j` is FREE or RESERVED for carrier `id` (R57, R77, R154). -/
def State.cellsTakable (s : State) (i j : Arm) (id : CarrierId) : Bool :=
  (cellSet i j).all fun k => (s.cell k).takable id

/-- The movement record with entry arm `i` (R55). -/
def State.move (s : State) (i : Arm) : Option Movement := s.xu.moves.get i

/-- The status is GRANTED. -/
def EntryStatus.isGranted : EntryStatus → Bool
  | .granted _ _ => true
  | .crossing _ _ => false

/-- The entry is the carrier's GRANTED entry. -/
def Entry.grantedTo (id : CarrierId) (e : Entry) : Bool := e.id == id && e.status.isGranted

/-- The entry arm of the movement record that holds a GRANTED entry of carrier `id`. -/
def State.grantOf (s : State) (id : CarrierId) : Option Arm :=
  Arm.list.find? fun i => match s.move i with
    | none => false
    | some m => m.carriers.any (Entry.grantedTo id)

/-- The entry arm of the movement record that holds a CROSSING entry of carrier `id`. -/
def State.crossingOf (s : State) (id : CarrierId) : Option Arm :=
  Arm.list.find? fun i => match s.move i with
    | none => false
    | some m => m.carriers.any fun e => e.id == id && !e.status.isGranted

/-- Carrier `id` stands in the carrier list of a movement record (R26). -/
def State.inMovement (s : State) (id : CarrierId) : Bool :=
  Arm.list.any fun i => match s.move i with
    | none => false
    | some m => m.carriers.any fun e => e.id == id

/-- Carrier `id` stands in the unmatched list; an entry with ID 0 is not matched (R31, log 22). -/
def State.inUnmatched (s : State) (id : CarrierId) : Bool :=
  id != 0 && s.xu.unmatched.any fun u => u.id == id

/-! ## Queues -/

/-- The queue of an arm, head first. -/
def State.queue (s : State) (i : Arm) : List Carrier := s.aqu.queues.get i

/-- The head of an arm's queue (R25). -/
def State.head (s : State) (i : Arm) : Option Carrier := (s.queue i).head?

/-- The record of a carrier in the queue of an arm. -/
def State.recordOn (s : State) (i : Arm) (id : CarrierId) : Option Carrier :=
  (s.queue i).find? fun c => c.id == id

/-- The arm in whose queue a carrier is held. -/
def State.queuedOn (s : State) (id : CarrierId) : Option Arm :=
  Arm.list.find? fun i => (s.recordOn i id).isSome

/-- The record of a carrier, in whatever queue it is held. -/
def State.record (s : State) (id : CarrierId) : Option Carrier :=
  (s.queuedOn id).bind fun i => s.recordOn i id

/-- The record is the head of its queue. -/
def State.isHead (s : State) (i : Arm) (id : CarrierId) : Bool :=
  match s.head i with
  | none => false
  | some h => h.id == id

/-- A record counts in the demand toward arm `j`: its exit is `j` and it holds no grant (R23, R35). -/
def Carrier.demands (j : Arm) (c : Carrier) : Bool := c.exit == j && c.state != .granted

/-- The demand toward an arm, capped at 15 (R35). -/
def State.demand (s : State) (j : Arm) : Nat :=
  min 15 (((s.queue 0).countP (Carrier.demands j)) + ((s.queue 1).countP (Carrier.demands j))
    + ((s.queue 2).countP (Carrier.demands j)) + ((s.queue 3).countP (Carrier.demands j)))

/-! ## Segment ends -/

/-- The segment-end record of an arm. -/
def State.seg (s : State) (i : Arm) : SegEnd := s.segs.get i

/-- The neighbour record of an arm. -/
def State.nbr (s : State) (i : Arm) : Neighbour := s.nbrs.get i

/-- The role of an arm's segment end (R91). -/
def State.role (s : State) (i : Arm) : Role :=
  if (s.arm i).neighbour = 0 then .spur
  else if s.cfg.nodeAddress < (s.arm i).neighbour then .lock else .far

/-- The condition of a segment end, from its two flags (R90). -/
def SegEnd.condition (g : SegEnd) : Condition :=
  if g.unsure then .unsure else if g.isolated then .isolated else .active

/-- The effective capacity (R94). -/
def SegEnd.capacity (configured : Nat) (g : SegEnd) : Nat :=
  match g.capN with
  | none => configured
  | some c => min configured c

/-- The effective capacity of an arm's segment end (R94). -/
def State.effCapacity (s : State) (i : Arm) : Nat := (s.seg i).capacity (s.arm i).capacity

/-- The fixed direction of a one-way lock end (R103). -/
def State.fixedDirection (s : State) (i : Arm) : Option Direction :=
  match s.role i, (s.arm i).kind with
  | .lock, .oneWayUp => some .outbound
  | .lock, .oneWayDown => some .inbound
  | .lock, .twoWay => none
  | .far, _ => none
  | .spur, _ => none

/-- The held limit of a far end is valid: its epoch is this node's own (R99). No epoch is taken as 0. -/
def State.heldValid (s : State) (i : Arm) : Bool :=
  s.scu.epoch != 0 && (s.seg i).heldEpoch == s.scu.epoch

/-- The headroom of a far end: (held limit − (E + R)) read as a signed value (R97). -/
def SegEnd.headroom (g : SegEnd) : Int := (g.heldLimit - (g.e + BitVec.ofNat 8 g.r)).toInt

/-- The admission test of the segment end of an arm (R97, R111). -/
def State.admits (s : State) (i : Arm) : Bool :=
  s.present i && s.part != .faulted && (s.seg i).condition == .active &&
  match s.role i with
  | .lock => (s.seg i).dir == .outbound && (s.seg i).occ + (s.seg i).r < s.effCapacity i
  | .spur => (s.seg i).dir == .outbound && (s.seg i).occ + (s.seg i).r < s.effCapacity i
  | .far => (s.nbr i).state == .live && (s.seg i).dirN == some .inbound && s.heldValid i
      && decide (1 ≤ (s.seg i).headroom)

/-- Every neighbour record is LIVE (R130). -/
def State.allLive (s : State) : Bool :=
  Arm.list.all fun i => !s.hasNeighbour i || (s.nbr i).state == .live

/-- An arm is isolating (R130). -/
def Neighbour.isolating (n : Neighbour) : Bool := n.state != .live || n.mismatch != .none

/-! ## Walkway -/

/-- An arm is in the walkway arm set (R9, R140). -/
def State.walkArm (s : State) (i : Arm) : Bool := s.present i && (s.arm i).walkway

/-- The walkway is working (R140). -/
def State.walkWorking (s : State) : Bool :=
  Arm.list.any (fun i => s.walkArm i) && s.cfg.walkMode != .off

/-- A movement involves the walkway (R148). -/
def State.involvesWalk (s : State) (i j : Arm) : Bool := s.walkArm i || s.walkArm j

/-- The walkway permits a grant in a round or a follow-on grant (R148). -/
def State.walkPermits (s : State) (i j : Arm) : Bool :=
  match s.wkp.state with
  | .closed => true
  | .closing => !s.involvesWalk i j
  | .opened => !s.involvesWalk i j

/-- The walkway permits a rescue grant (R148). -/
def State.walkPermitsRescue (s : State) (i j : Arm) : Bool :=
  match s.wkp.state with
  | .closed => true
  | .closing => true
  | .opened => !s.involvesWalk i j

/-! ## Hold and outputs -/

/-- The hold-cause set is not empty (R151). -/
def State.held (s : State) : Bool := s.hld.overrun || s.hld.unauthorised || s.hld.operator

/-- The hold-cause set contains OVERRUN or UNAUTHORISED_ENTRY (R52, R156, R158). -/
def State.heldForCarrier (s : State) : Bool := s.hld.overrun || s.hld.unauthorised

/-- The HOLD beacon, and the hold flag of every FLOOR REPORT (R115, R151). -/
def State.beacon (s : State) : Bool := s.held || s.part == .faulted

/-- New grants can be executed: RUNNING and not held (R57). -/
def State.granting (s : State) : Bool := s.part == .running && !s.held

/-- The GO lamp of an arm (R73). -/
def State.goLamp (s : State) (i : Arm) : Bool :=
  s.part == .running && match s.move i with
    | none => false
    | some m => m.carriers.any fun e => e.status.isGranted

/-- The WALK lamp (R147). -/
def State.walkLamp (s : State) : Bool := s.part == .running && s.wkp.state == .opened

/-- The line is idle: recessive for 12 bit times or more (R114). -/
def State.lineIdle (s : State) : Bool := 12 ≤ s.fli.rx.rest

/-- The bits of a 10-bit character on the floor line (R113) and on an arm link (R18): start bit, 8 data bits from the least
significant, stop bit. -/
def charBits (c : Byte) : List Bool :=
  false :: ((List.range 8).map fun k => c.getLsbD k) ++ [true]

/-- FLDE at bit time `k` of the attempt on the line: asserted for each dominant bit (logic 0) sent, and at no other time
(R113). -/
def State.flde (s : State) (k : Nat) : Bool :=
  s.fli.tx.state == .sending && !((s.fli.tx.build.flatMap charBits).getD k true)

end Sys2Proof.Machine
end

