-- ==== Sys2Proof/Machine/Acl.lean ====
section
/-! DEFINITION. The authority calculator (chapter 3): authority distance, speed ceiling and commitment test, in exact
integer arithmetic (R48). ACL keeps no state (R38). -/

namespace Sys2Proof.Machine

/-- The integer square root of `n` by bits: `r` is the root found so far, and `k` bits are left to try. -/
def isqrtBits (n : Nat) : Nat → Nat → Nat
  | 0, r => r
  | k + 1, r => if (r + 2 ^ k) * (r + 2 ^ k) ≤ n then isqrtBits n k (r + 2 ^ k) else isqrtBits n k r

/-- isqrt: the largest integer whose square does not exceed `n` (R48). -/
def isqrt (n : Nat) : Nat := isqrtBits n (n.log2 / 2 + 1) 0

/-- The latency deduction in cm (R40). -/
def latency (c : JunctionConfig) (v : Nat) : Nat := v * c.tLat / 1000

/-- The commitment test of a carrier of class `cls` at distance `d` with speed `v` (R49). -/
def committed (c : JunctionConfig) (cls : Fin 4) (d v : Nat) : Bool :=
  isqrt (2 * (c.classes.get cls).decel * (d - c.margin - latency c v)) < v

/-- The commitment test on a carrier record (R50). -/
def Carrier.committed (c : JunctionConfig) (r : Carrier) : Bool :=
  Machine.committed c r.cls r.distance r.speed

/-- The zone that contains a distance: the lowest k below n − 1 for which the distance is less than b(k), else the last
(R8). -/
def zoneIndex : List Zone → Nat → Nat
  | [], _ => 0
  | [_], _ => 0
  | z :: w :: rest, d => if d < z.bound then 0 else zoneIndex (w :: rest) d + 1

/-- The limit of zone `k` of a table. -/
def zoneLimit (zones : List Zone) (k : Nat) : Nat := (zones.getD k ⟨1, 10⟩).limit

/-- The speed from which a carrier of deceleration `a`, after its latency distance, is down to `limit` after `d` cm
(R45, R46). -/
def approachSpeed (a limit d lat : Nat) : Nat := isqrt (limit * limit + 2 * a * (d - lat))

/-- The zone terms v_k, for each zone below the carrier's own (R45). -/
def zoneTerms (a : Nat) (zones : List Zone) (d lat : Nat) : List Nat :=
  (zones.take (zoneIndex zones d)).map fun z => approachSpeed a z.limit (d - z.bound) lat

/-- The stopping term (R44). -/
def stoppingTerm (c : JunctionConfig) (a authority lat : Nat) : Nat :=
  isqrt (2 * a * (authority - c.margin - lat))

/-- The own limit of a carrier on a movement, beyond its stop line: path length and exit clearance (R41). -/
def beyondLine (c : JunctionConfig) (i j : Arm) : Nat :=
  ((c.paths.get i).get j).length + (c.arms.get j).exitClearance

/-- The leader limit (R42), as a signed number. -/
def leaderLimit (c : JunctionConfig) (d : Nat) (leader : Carrier) : Int :=
  (d : Int) - ((leader.distance : Int) + leader.length + c.headway)

/-- The authority distance: the smaller limit, clamped into 0 to 65535 (R43). -/
def authority (own : Nat) (lead : Option Int) : Nat :=
  match lead with
  | none => min own 65535
  | some l => min (min (own : Int) l).toNat 65535

/-- The authority and ceiling of a queued record with a leader or none (R39 to R47). -/
def queuedClearance (c : JunctionConfig) (r : Carrier) (leader : Option Carrier) : Nat × Nat :=
  let granted := r.state == .granted
  let a := (c.classes.get r.cls).decel
  let lat := latency c r.speed
  let own := if granted then r.distance + beyondLine c r.arrival r.exit else r.distance
  let auth := authority own (leader.map (leaderLimit c r.distance))
  let zones := (c.arms.get r.arrival).zones
  let terms := zoneLimit zones (zoneIndex zones r.distance) :: zoneTerms a zones r.distance lat
    ++ (if granted then [approachSpeed a c.xlim r.distance lat] else [])
    ++ [stoppingTerm c a auth lat]
  (auth, min 400 (terms.foldl min (c.classes.get r.cls).limit))

/-- The authority and ceiling of a CROSSING carrier of class `cls` on the movement from `i` to `j` (R39, R41, R47). -/
def crossingClearance (c : JunctionConfig) (cls : Fin 4) (i j : Arm) : Nat × Nat :=
  let auth := authority (beyondLine c i j) none
  let stop := stoppingTerm c (c.classes.get cls).decel auth (latency c c.xlim)
  (auth, min 400 (min (min (c.classes.get cls).limit c.xlim) stop))

end Sys2Proof.Machine
end

