-- ==== Sys2Proof/Machine/Ops.lean ====
section
/-! DEFINITION. The named operations on the pieces of state that more than one block writes: arbitration triggers (R75),
bulk cell orders (R54), send lists (R20), carrier records and movement records in place, and the change waiting flag
(R119). -/

namespace Sys2Proof.Machine

/-- An arbitration trigger: kept only while the part is RUNNING and not held (R75). -/
def State.trigger (s : State) : State :=
  if s.granting then { s with jar := { s.jar with due := true } } else s

/-- A change report is scheduled: the change waiting flag is set (R119). -/
def State.scheduleChange (s : State) : State :=
  { s with fli := { s.fli with tx := { s.fli.tx with changeWaiting := true } } }

/-- The part state is changed. -/
def State.setPart (p : PartState) (s : State) : State := { s with scu := { s.scu with part := p } }

/-! ## Cells -/

/-- Every cell under `f`. -/
def State.mapCells (f : Cell → Cell) (s : State) : State :=
  { s with xu := { s.xu with cells := s.xu.cells.map f } }

/-- The cells of a set under `f`. -/
def State.mapCellsIn (set : List Arm) (f : Cell → Cell) (s : State) : State :=
  { s with xu := { s.xu with cells := .build fun k => if set.contains k then f (s.cell k) else s.cell k } }

/-- The first order of R54: FREE and RESERVED become EMERGENCY. -/
def Cell.toEmergency : Cell → Cell
  | .free => .emergency
  | .held h => .held h
  | .reserved _ => .emergency
  | .emergency => .emergency
  | .unknown => .unknown

/-- The second order of R54: EMERGENCY becomes FREE. -/
def Cell.fromEmergency : Cell → Cell
  | .free => .free
  | .held h => .held h
  | .reserved c => .reserved c
  | .emergency => .free
  | .unknown => .unknown

/-- The third order of R54: UNKNOWN becomes FREE. -/
def Cell.resolve : Cell → Cell
  | .free => .free
  | .held h => .held h
  | .reserved c => .reserved c
  | .emergency => .emergency
  | .unknown => .free

/-- A designation: FREE becomes RESERVED for the carrier (R53). -/
def Cell.reserveFor (id : CarrierId) : Cell → Cell
  | .free => .reserved id
  | .held h => .held h
  | .reserved c => .reserved c
  | .emergency => .emergency
  | .unknown => .unknown

/-- The end of a designation: RESERVED for the carrier becomes FREE (R53). -/
def Cell.unreserve (id : CarrierId) : Cell → Cell
  | .free => .free
  | .held h => .held h
  | .reserved c => if c = id then .free else .reserved c
  | .emergency => .emergency
  | .unknown => .unknown

/-! ## Movement records -/

/-- The movement record with entry arm `i` is replaced, or removed. -/
def State.setMove (i : Arm) (m : Option Movement) (s : State) : State :=
  { s with xu := { s.xu with moves := s.xu.moves.set i m } }

/-- The unmatched list is replaced (R65). -/
def State.setUnmatched (l : List Unmatched) (s : State) : State := { s with xu := { s.xu with unmatched := l } }

/-- An entry joins the unmatched list at its end when the list has a free place (R64, R72). -/
def State.addUnmatched (u : Unmatched) (s : State) : State :=
  if s.xu.unmatched.length < 4 then s.setUnmatched (s.xu.unmatched ++ [u]) else s

/-! ## Send lists -/

/-- An item falls due on a link: it joins the send list unless that holds 16 items (R20). -/
def State.sendDue (link : Arm) (item : SendItem) (s : State) : State :=
  if (s.aqu.sends.get link).length < 16 then
    { s with aqu := { s.aqu with sends := s.aqu.sends.set link (s.aqu.sends.get link ++ [item]) } }
  else s

/-- A CLEARANCE falls due on a link; an unsent one for the same ID stands in its place (R20, R36). -/
def State.clearanceDue (link : Arm) (id : CarrierId) (s : State) : State :=
  if (s.aqu.sends.get link).contains (.clearance id) then s else s.sendDue link (.clearance id)

/-- A REFUSAL falls due on a link (R20). -/
def State.refusalDue (link : Arm) (id : CarrierId) (reason : RefusalReason) (s : State) : State :=
  s.sendDue link (.refusal id reason)

/-- The unsent CLEARANCE items for an ID leave every send list (R20). -/
def State.dropClearances (id : CarrierId) (s : State) : State :=
  { s with aqu := { s.aqu with sends := s.aqu.sends.map fun l => l.filter fun it => it != .clearance id } }

/-- The row of a message that has ended is taken (R18, R19): the receiver hunts for the sync byte. Where the receiver has
itself read the message to its end it hunts since then, and a message it has begun meanwhile goes on (log 7). -/
def LinkReceiver.takeRow (x : LinkReceiver) : LinkReceiver :=
  if x.ended = 0 then { x with message := none } else { x with ended := x.ended - 1 }

/-- The receiver of a link as the row of a message leaves it (R18, R19). -/
def State.huntLink (link : Arm) (s : State) : State :=
  { s with aqu := { s.aqu with linkRx := s.aqu.linkRx.set link (s.aqu.linkRx.get link).takeRow } }

/-! ## Carrier records -/

/-- The queues are replaced, with no further effect. The operations of Crossing.lean give the effects of a change. -/
def State.putQueue (i : Arm) (q : List Carrier) (s : State) : State :=
  { s with aqu := { s.aqu with queues := s.aqu.queues.set i q } }

/-- The record of carrier `id` under `f`, in a queue. -/
def updateRecord (id : CarrierId) (f : Carrier → Carrier) (q : List Carrier) : List Carrier :=
  q.map fun c => if c.id = id then f c else c

/-- A record becomes WAITING, or MUTE while its silent flag is set (R23). -/
def Carrier.toWaiting (c : Carrier) : Carrier := { c with state := if c.silent then .mute else .waiting }

/-- A record becomes LAPSED, or MUTE while its silent flag is set (R23). -/
def Carrier.toLapsed (c : Carrier) : Carrier := { c with state := if c.silent then .mute else .lapsed }

/-- A message from the carrier is counted as heard: the silent flag is cleared and the silence time returns to 0 (R34). -/
def Carrier.heard (c : Carrier) : Carrier := { c with silent := false, silence := 0 }

/-- A record that holds no grant becomes WAITING when its carrier is heard; a GRANTED one stays GRANTED (R28, R30). -/
def Carrier.wake (c : Carrier) : Carrier :=
  { c with state := if c.state = .granted then .granted else .waiting }

/-- A new record goes in front of the first record that is neither GRANTED nor at a distance less than or equal to its
own (R24). -/
def insertRecord (c : Carrier) : List Carrier → List Carrier
  | [] => [c]
  | h :: rest => if h.state = .granted ∨ h.distance ≤ c.distance then h :: insertRecord c rest else c :: h :: rest

end Sys2Proof.Machine
end

