-- ==== Sys2Proof/Machine/Segments.lean ====
section
/-! DEFINITION. The segment unit (chapter 6): counts and reservations (R92, R93), the consistency test (R96), the limit
(R98, R99), the direction at the lock end (R100 to R104), isolation and uncertainty (R105 to R110). -/

namespace Sys2Proof.Machine

/-- The segment-end record of an arm is replaced, with no further effect. -/
def State.putSeg (i : Arm) (g : SegEnd) (s : State) : State := { s with segs := s.segs.set i g }

/-- The limit of a lock end is open (R98). -/
def State.limitOpen (s : State) (i : Arm) (g : SegEnd) : Bool :=
  s.role i == .lock && g.condition == .active && s.part != .faulted && g.dir == .inbound

/-- E_n + R_n, mod 256 (R98). -/
def SegEnd.farCommitted (g : SegEnd) : Byte := g.eN + BitVec.ofNat 8 g.rN

/-- The open limit: E_n + (effective capacity − occupancy view), mod 256 (R98). -/
def SegEnd.openLimit (configured : Nat) (g : SegEnd) : Byte :=
  g.eN + (BitVec.ofNat 8 (g.capacity configured) - BitVec.ofNat 8 g.occ)

/-- The limit after a change of the record from `old` to `new`: recomputed while open, E_n + R_n when it passes from open
to closed, and otherwise kept (R98). -/
def State.relimit (s : State) (i : Arm) (old new : SegEnd) : SegEnd :=
  if s.limitOpen i new then { new with limit := new.openLimit (s.arm i).capacity }
  else if s.limitOpen i old then { new with limit := new.farCommitted }
  else new

/-- The one way a segment-end record is changed: by `f`, the limit following (R98). -/
def State.modSeg (i : Arm) (f : SegEnd → SegEnd) (s : State) : State :=
  s.putSeg i (s.relimit i (s.seg i) (f (s.seg i)))

/-- An occupancy view fails the consistency test (R96). -/
def State.inconsistent (s : State) (i : Arm) (v : Int) : Bool :=
  decide (v < 0) || match s.role i with
    | .lock => decide ((s.effCapacity i : Int) < v + (s.seg i).r)
    | .spur => decide ((s.effCapacity i : Int) < v + (s.seg i).r)
    | .far => decide ((s.effCapacity i : Int) < v)

/-- The occupancy view takes a value under the consistency test: when it fails, COUNT_INCONSISTENT is raised and the
unsure flag set; the view is clamped into 0 to 15 (R96). -/
def State.takeView (i : Arm) (v : Int) (s : State) : State :=
  let occ := min v.toNat 15
  if s.inconsistent i v then
    (s.modSeg i fun g => { g with occ := occ, unsure := true }).raise .countInconsistent
  else s.modSeg i fun g => { g with occ := occ }

/-- The consistency test of the view as it stands, after a change of R or of the effective capacity (R94, R96). -/
def State.retestView (i : Arm) (s : State) : State := s.takeView i (s.seg i).occ

/-! ## Direction -/

/-- The closing handshake of a lock end in CLOSING is complete (R102). -/
def SegEnd.handshakeDone (g : SegEnd) : Bool :=
  g.limN == g.limit && g.limEpN == g.limitEpoch && g.rN == 0 && decide ((g.limit - g.eN).toInt ≤ 0) && g.occ == 0

/-- The row of the direction table that applies, with own demand and far demand (R101). -/
def SegEnd.nextDirection (own far : Nat) (g : SegEnd) : Option Direction :=
  match g.dir with
  | .free =>
    if 0 < own then
      if 0 < far then (match g.last with
        | .inbound => some .outbound
        | .outbound => some .inbound)
      else some .outbound
    else if 0 < far then some .inbound else none
  | .outbound =>
    if own = 0 ∧ g.occ = 0 ∧ g.r = 0 then (if 0 < far then some .inbound else some .free)
    else if g.hold = .expired ∧ 0 < far then some .draining else none
  | .draining =>
    if g.occ = 0 ∧ g.r = 0 then (if 0 < far then some .inbound else some .free) else none
  | .inbound =>
    if far = 0 ∨ (g.hold = .expired ∧ 0 < own) then some .closing else none
  | .closing =>
    if g.handshakeDone then (if 0 < own then some .outbound else some .free) else none

/-- A direction is entered, with its hold timer and the last direction (R100, R101). -/
def SegEnd.enterDirection (d : Direction) (g : SegEnd) : SegEnd :=
  match d with
  | .free => { g with dir := .free, hold := .stopped }
  | .outbound => { g with dir := .outbound, hold := .running 0, last := .outbound }
  | .inbound => { g with dir := .inbound, hold := .running 0, last := .inbound }
  | .draining => { g with dir := .draining, hold := .stopped }
  | .closing => { g with dir := .closing, hold := .stopped }

/-- The far demand of the direction table: demand_n, and 0 at a spur (R101, R104). -/
def State.farDemand (s : State) (i : Arm) : Nat :=
  match s.role i with
  | .lock => (s.seg i).demN
  | .far => (s.seg i).demN
  | .spur => 0

/-- The direction of an arm's segment end is evaluated: a spur, or the lock end of a two-way segment, ACTIVE, the part not
FAULTED (R101, R103, R104). -/
def State.steers (s : State) (i : Arm) : Bool :=
  s.present i && s.role i != .far && (s.fixedDirection i).isNone && (s.seg i).condition == .active
    && s.part != .faulted

/-- The direction table applied until no row applies. Three applications are the most that can follow one another; the
first argument bounds them (R101). -/
def State.steer : Nat → Arm → State → State
  | 0, _, s => s
  | n + 1, i, s =>
    match (s.seg i).nextDirection (s.demand i) (s.farDemand i) with
    | none => s
    | some d => State.steer n i (s.modSeg i (SegEnd.enterDirection d))

/-- The direction of an arm's segment end is evaluated (R101). -/
def State.evaluate (i : Arm) (s : State) : State := if s.steers i then s.steer 4 i else s

/-! ## Counts and reservations -/

/-- A reservation is taken (R93). -/
def State.takeReservation (i : Arm) (s : State) : State :=
  (s.modSeg i fun g => { g with r := min 15 (g.r + 1) }).retestView i

/-- A reservation is released: R falls by 1 when above 0, and the direction is evaluated (R93). -/
def State.releaseReservation (i : Arm) (s : State) : State :=
  (if (s.seg i).r = 0 then s else (s.modSeg i fun g => { g with r := g.r - 1 }).retestView i).evaluate i

/-- A count of E at the segment end of an arm; `consume` when the exit release is matched to a movement (R92, R93). -/
def State.countE (i : Arm) (consume : Bool) (s : State) : State :=
  let s' := s.modSeg i fun g => { g with e := g.e + 1, r := if consume then g.r - 1 else g.r }
  (s'.takeView i ((s'.seg i).occ + 1)).evaluate i

/-- A count of X at the segment end of an arm (R92). -/
def State.countX (i : Arm) (s : State) : State :=
  let s' := s.modSeg i fun g => { g with x := g.x + 1 }
  (s'.takeView i ((s'.seg i).occ - 1)).evaluate i

/-! ## Entries of the neighbour -/

/-- The role a report entry carries, when its code is used (R186). -/
def entryRole (e : RawEntry) : Option Role :=
  match e.codes.toNat % 4 with
  | 1 => some .lock
  | 2 => some .far
  | _ => none

/-- The segment kind a report entry carries, when its code is used (R186). -/
def entryKind (e : RawEntry) : Option SegKind :=
  match e.codes.toNat / 4 % 4 with
  | 0 => some .twoWay
  | 1 => some .oneWayUp
  | 2 => some .oneWayDown
  | _ => none

/-- The condition a report entry carries, when its code is used (R186). -/
def entryCondition (e : RawEntry) : Option Condition :=
  match e.codes.toNat / 16 % 4 with
  | 0 => some .active
  | 1 => some .isolated
  | 2 => some .unsure
  | _ => none

/-- The direction a report entry carries, when its code is used (R186). -/
def entryDirection (e : RawEntry) : Option Direction :=
  match e.dir.toNat with
  | 0 => some .free
  | 1 => some .outbound
  | 2 => some .inbound
  | 3 => some .draining
  | 4 => some .closing
  | _ => none

/-- Every field of an entry addressed to this node holds a value NBM takes (R131). -/
def entryAcceptable (e : RawEntry) : Bool :=
  (entryRole e).isSome && (entryKind e).isSome && (entryCondition e).isSome && (entryDirection e).isSome
    && e.r.toNat ≤ 15 && e.demand.toNat ≤ 15 && e.occ.toNat ≤ 15
    && 1 ≤ e.capacity.toNat && e.capacity.toNat ≤ 15

/-- The last-heard fields take the values of an entry (R95, step 3). -/
def SegEnd.hear (e : RawEntry) (g : SegEnd) : SegEnd :=
  { g with
    eN := e.e, xN := e.x, rN := e.r.toNat, demN := e.demand.toNat, occN := e.occ.toNat,
    capN := some e.capacity.toNat, condN := entryCondition e, dirN := entryDirection e, limN := e.lim, limEpN := e.limEpoch }

/-- The kind of an entry handed to SGU (R95, R135). -/
inductive EntryKind where
  | first
  | newEpoch
  | ordinary
deriving DecidableEq, Repr

/-- Steps 1 and 2 of R95: the deltas of an ordinary entry. Where step 2 sets the unsure flag of a lock end whose limit is
open, the limit closes here, at the E_n + R_n heard before this entry; it is lowered by the entry's own fields in step 5
(R98, log 13). -/
def State.applyDeltas (i : Arm) (e : RawEntry) (s : State) : State :=
  let dE := (e.e - (s.seg i).eN).toNat
  let dX := (e.x - (s.seg i).xN).toNat
  if dE ≤ 30 ∧ dX ≤ 30 then s.takeView i (((s.seg i).occ : Int) + dE - dX)
  else (s.modSeg i fun g => { g with unsure := true }).raise .countInconsistent

/-- The last-heard fields are stored; the consistency test follows a change of the effective capacity (R94, R95). -/
def State.storeHeard (i : Arm) (e : RawEntry) (s : State) : State :=
  let s' := s.modSeg i (SegEnd.hear e)
  if s'.effCapacity i = s.effCapacity i then s' else s'.retestView i

/-- A new base at a lock end: L takes E_n + R_n of the entry and the limit epoch the neighbour's epoch (R98, R110). -/
def SegEnd.takeBase (epoch : Byte) (g : SegEnd) : SegEnd :=
  { g with limit := g.farCommitted, limitEpoch := epoch }

/-- The base part of an entry, before the role-specific work: deltas, or adoption and rebase (R95, R110). -/
def State.takeEntryBase (i : Arm) (kind : EntryKind) (epoch : Byte) (e : RawEntry) (s : State) : State :=
  match kind with
  | .ordinary => (s.applyDeltas i e).storeHeard i e
  | .first =>
    let s' := s.storeHeard i e
    match s.role i with
    | .lock =>
      let s' := if (s.seg i).unsure then
          (if (s'.seg i).occ = e.occ.toNat then s' else s'.takeView i e.occ.toNat)
        else s'
      s'.modSeg i (SegEnd.takeBase epoch)
    | .far => s'
    | .spur => s'
  | .newEpoch =>
    let s' := (s.modSeg i fun g => { g with unsure := true }).storeHeard i e
    match s.role i with
    | .lock => s'.modSeg i (SegEnd.takeBase epoch)
    | .far => s'
    | .spur => s'

/-- A closed limit falls, and does not rise (R98). -/
def SegEnd.lower (g : SegEnd) : SegEnd :=
  if (g.farCommitted - g.limit).toInt < 0 then { g with limit := g.farCommitted } else g

/-- A far end follows the condition of its lock end (R107). -/
def State.follow (i : Arm) (e : RawEntry) (s : State) : State :=
  match entryCondition e with
  | some .active =>
    if e.limEpoch = s.scu.epoch ∧ (s.seg i).unsure then
      (s.modSeg i fun g => { g with unsure := false }).takeView i e.occ.toNat
    else s
  | some .unsure => s.modSeg i fun g => { g with unsure := true }
  | some .isolated => s
  | none => s

/-- The role-specific work of an entry (R95, step 5; R98, R99, R101, R107). -/
def State.takeEntryRole (i : Arm) (e : RawEntry) (s : State) : State :=
  match s.role i with
  | .lock =>
    (if s.limitOpen i (s.seg i) then s else s.modSeg i SegEnd.lower).evaluate i
  | .far => (s.modSeg i fun g => { g with heldLimit := e.lim, heldEpoch := e.limEpoch }).follow i e
  | .spur => s

/-- The isolated flag is cleared at the handover of an entry with the neighbour LIVE and no mismatch, and the direction is
evaluated (R105). -/
def State.clearIsolation (i : Arm) (s : State) : State :=
  if (s.nbr i).isolating then s
  else (s.modSeg i fun g => { g with isolated := false }).evaluate i

/-- SGU takes an entry that NBM hands over (R95, R105, R110, R138 step 6). -/
def State.takeEntry (i : Arm) (kind : EntryKind) (epoch : Byte) (e : RawEntry) (s : State) : State :=
  ((s.takeEntryBase i kind epoch e).takeEntryRole i e).clearIsolation i

/-- The arm becomes isolating: the isolated flag is set at once (R105, R130). -/
def State.isolate (i : Arm) (s : State) : State := s.modSeg i fun g => { g with isolated := true }

/-! ## Leaving UNSURE -/

/-- The direction an end takes when it is confirmed or proved clear: FREE, or the fixed direction (R108, R109). -/
def State.restDirection (s : State) (i : Arm) : Direction := (s.fixedDirection i).getD .free

/-- An end known to be clear: the unsure flag is cleared, the direction is at rest, the hold and quiet timers stop (R108,
R109). -/
def SegEnd.rest (d : Direction) (g : SegEnd) : SegEnd :=
  { g with unsure := false, dir := d, hold := .stopped, quiet := .stopped }

/-- Quiet proof of an arm's segment end (R108): the test at the quiet timer's end. In FAULTED too it sets the direction to
rest and stops the hold timer (R111, log 38). -/
def State.proveQuiet (i : Arm) (s : State) : State :=
  if (s.seg i).occ = 0 ∧ (s.role i = .spur ∨ (s.seg i).isolated = false) then
    (s.modSeg i (SegEnd.rest (s.restDirection i))).evaluate i
  else s.modSeg i fun g => { g with quiet := .running 0 }

/-- The effect of an accepted CONFIRM CLEAR for an arm (R109). In FAULTED too it sets the direction to rest and stops the
hold timer (R111, log 38). -/
def State.confirmArm (i : Arm) (s : State) : State :=
  let s' := s.modSeg i fun g => SegEnd.rest (s.restDirection i) { g with occ := 0, r := 0 }
  let s' := if s'.role i = .lock ∧ s'.limitOpen i (s'.seg i) = false then
      s'.modSeg i fun g => { g with limit := g.farCommitted }
    else s'
  (s'.evaluate i).scheduleChange

/-- Every open limit closes, as the part enters FAULTED (R98, R111). -/
def State.closeLimits (s : State) : State :=
  { s with segs := .build fun i =>
      if s.limitOpen i (s.seg i) then { s.seg i with limit := (s.seg i).farCommitted } else s.seg i }

end Sys2Proof.Machine
end

