-- ==== Sys2Proof/Machine/Walkway.lean ====
section
/-! DEFINITION. The walkway phaser's cycle (chapter 9): the interval (R142), the latch point (R143), OPEN (R145), and what
hold entry does to it (R149). -/

namespace Sys2Proof.Machine

/-- The walkway phaser's state under `f`. -/
def State.modWkp (f : Wkp → Wkp) (s : State) : State := { s with wkp := f s.wkp }

/-- The interval timer starts for the latched P, while the walkway is working, the part is RUNNING and not held
(R142). -/
def State.startInterval (s : State) : State :=
  if s.walkWorking && s.granting then s.modWkp fun w => { w with interval := .running 0 } else s

/-- No movement record has a walkway arm, and the unmatched list is empty (R145). -/
def State.walkwayClear (s : State) : Bool :=
  s.xu.unmatched.isEmpty && Arm.list.all fun i => match s.move i with
    | none => true
    | some m => !s.involvesWalk i m.exit

/-- The OPEN test (R145). It is made in CLOSING; while the junction is held or not RUNNING the cycle is suspended and OPEN
is not entered (R149, log 11). -/
def State.openTest (s : State) : State :=
  if s.wkp.state == .closing && s.granting && s.walkwayClear then
    (s.modWkp fun w => { w with state := .opened, clearance := .stopped, opening := .running 0,
                                request := false }).trigger
  else s

/-- The latch point of a cycle (R143). -/
def State.latchPoint (s : State) : State :=
  let s := s.modWkp fun w => { w with latchedP := w.stagedP, latchedW := w.stagedW }
  if s.wkp.latchedW = 0 then
    (s.modWkp fun w => { w with request := false, interval := .stopped }).startInterval
  else
    (s.modWkp fun w => { w with state := .closing, interval := .stopped, clearance := .running 0 }).openTest

/-- Hold entry forces the walkway CLOSED and stops its timers; the request and the times are kept (R149). -/
def State.suspendWalkway (s : State) : State :=
  s.modWkp fun w => { w with state := .closed, interval := .stopped, clearance := .stopped, opening := .stopped }

/-- A press of the button is taken (R144). -/
def State.pressButton (s : State) : State :=
  if s.walkWorking && s.cfg.walkMode == .onDemand && (s.part == .recovering || s.part == .running)
      && s.wkp.state == .closed && !s.wkp.request then
    let s' := s.modWkp fun w => { w with request := true }
    if s'.wkp.interval = .expired then s'.latchPoint else s'
  else s

end Sys2Proof.Machine
end

