-- ==== Sys2Proof/Machine/Crossing.lean ====
section
/-! DEFINITION. Queues and the crossing: what follows a change of a queue (R25, R35, R75, R85), the end of an overdue
designation (R85), movement records and their end (R52, R59), withdrawal of a grant (R59), grant execution (R57, R58),
matching of exits (R66, R67). -/

namespace Sys2Proof.Machine

/-! ## The overdue designation -/

/-- The overdue designation still stands by its record: that record is the head of its arrival arm, WAITING, with the
designated exit (R85). -/
def State.overdueStands (s : State) (o : Overdue) : Bool :=
  match s.head o.arrival with
  | none => false
  | some h => h.id == o.id && h.state == .waiting && h.exit == o.exit

/-- A cell is RESERVED for a carrier. -/
def Cell.reservedFor (id : CarrierId) : Cell → Bool
  | .free => false
  | .held _ => false
  | .reserved c => c == id
  | .emergency => false
  | .unknown => false

/-- The overdue designation ends (R85): it becomes absent, the record's overdue flag is cleared and its skip count
returns to 0, and the cells RESERVED for it become FREE, which is a trigger (R53, R75). After a grant no cell is RESERVED
for the carrier any more. -/
def State.endOverdue (s : State) : State :=
  match s.jar.overdue with
  | none => s
  | some o =>
    let freed := s.xu.cells.toList.any (Cell.reservedFor o.id)
    let s := { s with jar := { s.jar with overdue := none } }
    let s := s.putQueue o.arrival (updateRecord o.id (fun c => { c with overdue := false, skip := 0 }) (s.queue o.arrival))
    let s := s.mapCells (Cell.unreserve o.id)
    if freed then s.trigger else s

/-- The designation ends when its record no longer stands for it (R85). -/
def State.checkOverdue (s : State) : State :=
  match s.jar.overdue with
  | none => s
  | some o => if s.overdueStands o then s else s.endOverdue

/-! ## Changes of a queue -/

/-- The demand toward each arm whose count has changed since `old` is taken at once by its segment end (R35, R101). -/
def State.noteDemand (old s : State) : State :=
  Arm.list.foldl (fun t j => if t.demand j = old.demand j then t else t.evaluate j) s

/-- The change of a queue is a trigger: another head, or a head that has become WAITING (R25, R75, log 10). -/
def headNews (old new : List Carrier) : Bool :=
  match old.head?, new.head? with
  | none, none => false
  | none, some _ => true
  | some _, none => true
  | some a, some b => a.id != b.id || (a.state != .waiting && b.state == .waiting)

/-- The one way a queue is changed: the demand, the trigger and the overdue designation follow (R25, R35, R75, R85). -/
def State.onQueue (i : Arm) (f : List Carrier → List Carrier) (s : State) : State :=
  let t := State.noteDemand s (s.putQueue i (f (s.queue i)))
  (if headNews (s.queue i) (f (s.queue i)) then t.trigger else t).checkOverdue

/-- The record of carrier `id` on an arm changes by `f`. -/
def State.onRecord (i : Arm) (id : CarrierId) (f : Carrier → Carrier) (s : State) : State :=
  s.onQueue i (updateRecord id f)

/-- The record of carrier `id` leaves an arm's queue; the order of the others is kept (R25). -/
def State.removeRecord (i : Arm) (id : CarrierId) (s : State) : State :=
  s.onQueue i fun q => q.filter fun c => c.id != id

/-! ## The end of a movement record, and withdrawal -/

/-- The state a cell takes when its movement record ends (R52). -/
def State.releasedCell (s : State) (k : Arm) : Cell :=
  if s.heldForCarrier || s.part == .faulted then .emergency
  else match s.jar.overdue with
    | none => .free
    | some o => if (cellSet o.arrival o.exit).contains k then .reserved o.id else .free

/-- A movement record ends (R52, R59): it is removed, its cells leave HELD, which is a trigger, and the OPEN test is made
(R145). -/
def State.endMovement (i j : Arm) (s : State) : State :=
  let t := s.setMove i none
  ({ t with xu := { t.xu with cells := .build fun k =>
        if (cellSet i j).contains k then s.releasedCell k else s.cell k } }).trigger.openTest

/-- The GRANTED entry of carrier `id` leaves a carrier list. -/
def dropGranted (id : CarrierId) (l : List Entry) : List Entry := l.filter fun e => !e.grantedTo id

/-- A grant is withdrawn from carrier `id` (R59): its GRANTED entry leaves the carrier list with its start timer, the
reservation at the exit segment end is released, and the record ends if its list is empty. -/
def State.withdrawGrant (id : CarrierId) (s : State) : State :=
  match s.grantOf id with
  | none => s
  | some i =>
    match s.move i with
    | none => s
    | some m =>
      let l := dropGranted id m.carriers
      let s := s.setMove i (some { m with carriers := l })
      let s := s.releaseReservation m.exit
      if l.isEmpty then s.endMovement i m.exit else s

/-! ## Grant execution -/

/-- The entry a grant puts in a carrier list (R57, step 2). -/
def grantedEntry (c : Carrier) : Entry := { id := c.id, cls := c.cls, status := .granted (.running 0) false }

/-- Steps 4 to 6 of a grant, for the carrier of a record (R57). -/
def State.finishGrant (c : Carrier) (s : State) : State :=
  ((s.takeReservation c.exit).onRecord c.arrival c.id
    (fun r => { r with state := .granted, skip := 0 })).clearanceDue c.arrival c.id

/-- A grant that creates a movement record can be executed (R57). -/
def State.grantExecutable (s : State) (c : Carrier) : Bool :=
  s.granting && (s.move c.arrival).isNone && s.cellsTakable c.arrival c.exit c.id

/-- Grant execution (R57), for the head record `c`; `rescue` for a rescue grant. When a condition fails, nothing
changes. -/
def State.executeGrant (c : Carrier) (rescue : Bool) (s : State) : State :=
  if s.grantExecutable c then
    (((s.setMove c.arrival (some { exit := c.exit, carriers := [grantedEntry c], followOns := 0, rescued := rescue }))
      ).mapCellsIn (cellSet c.arrival c.exit) (fun _ => .held c.arrival)).finishGrant c
  else s

/-- A follow-on grant into the movement record of its arm can be executed (R58). -/
def State.followOnExecutable (s : State) (c : Carrier) (m : Movement) : Bool :=
  s.granting && m.exit == c.exit && m.carriers.length < 1 + s.cfg.platoon

/-- A follow-on grant (R58): the list gains an entry at its end and the follow-on count rises by 1. -/
def State.executeFollowOn (c : Carrier) (s : State) : State :=
  match s.move c.arrival with
  | none => s
  | some m =>
    if s.followOnExecutable c m then
      (s.setMove c.arrival (some { m with carriers := m.carriers ++ [grantedEntry c],
                                          followOns := m.followOns + 1 })).finishGrant c
    else s

/-! ## Lapse -/

/-- A grant lapses (R68): it is withdrawn, the record becomes LAPSED or MUTE, a CLEARANCE is due and GRANT_LAPSE is
raised. -/
def State.lapse (id : CarrierId) (s : State) : State :=
  match s.queuedOn id with
  | none => s
  | some i =>
    ((((s.withdrawGrant id).onRecord i id Carrier.toLapsed).clearanceDue i id).raise .grantLapse)

/-- The entries of a movement record's carrier list under `f`. -/
def State.mapEntries (i : Arm) (f : Entry → Entry) (s : State) : State :=
  match s.move i with
  | none => s
  | some m => s.setMove i (some { m with carriers := m.carriers.map f })

/-- The first entry that satisfies `p` under `f`. -/
def mapFirst {α : Type} (p : α → Bool) (f : α → α) : List α → List α
  | [] => []
  | a :: rest => if p a then f a :: rest else a :: mapFirst p f rest

/-! ## Exits -/

/-- The entry is CROSSING. -/
def Entry.isCrossing (e : Entry) : Bool := !e.status.isGranted

/-- The movement record that a release on exit arm `j` matches: its exit arm is `j` and it holds a CROSSING entry
(R66). -/
def State.exitMove (s : State) (j : Arm) : Option Arm :=
  Arm.list.find? fun i => match s.move i with
    | none => false
    | some m => m.exit == j && m.carriers.any Entry.isCrossing

/-- An unmatched entry can leave by exit arm `j`: its exit is `j` or unknown (R66). -/
def Unmatched.leavesBy (j : Arm) (u : Unmatched) : Bool := u.exit == some j || u.exit == none

/-- An exit release on arm `j` (R66, R67). -/
def State.exitRelease (j : Arm) (s : State) : State :=
  match s.exitMove j with
  | some i =>
    match s.move i with
    | none => s
    | some m =>
      let l := m.carriers.eraseP Entry.isCrossing
      let s := (s.setMove i (some { m with carriers := l })).countE j true
      if l.isEmpty then s.endMovement i j else s
  | none =>
    if s.xu.unmatched.any (Unmatched.leavesBy j) then
      ((s.setUnmatched (s.xu.unmatched.eraseP (Unmatched.leavesBy j))).countE j false).openTest
    else (s.raise .phantomExit).countE j false

end Sys2Proof.Machine
end

