-- ==== Sys2Proof/Machine/Arbiter.lean ====
section
/-! DEFINITION. The junction arbiter (chapter 5): the arm order and candidate order (R79, R80), eligibility (R77), skip
counts (R82), the overdue designation (R83, R84), follow-on grants (R86, R87), the switches (R81), the round (R76). -/

namespace Sys2Proof.Machine

/-- The arm order read from S2, S3 and S4 (R79). -/
def Jar.armOrder (j : Jar) : List Arm :=
  let low : List Arm := match j.s3 with
    | .lower => [0, 1]
    | .upper => [1, 0]
  let high : List Arm := match j.s4 with
    | .lower => [2, 3]
    | .upper => [3, 2]
  match j.s2 with
  | .arms01 => low ++ high
  | .arms23 => high ++ low

/-- Conditions 1, 2, 3 and 6 of R77 for a head record. -/
def State.routeOpen (s : State) (c : Carrier) : Bool :=
  c.state == .waiting && s.inbound c.arrival && s.outbound c.exit && s.permitted c.arrival c.exit && s.admits c.exit

/-- A head record is eligible (R77). -/
def State.eligible (s : State) (c : Carrier) : Bool :=
  s.routeOpen c && s.cellsTakable c.arrival c.exit c.id && s.walkPermits c.arrival c.exit

/-- A head record is waiting on the crossing (R78): it passes conditions 1, 2, 3 and 6, whether it is eligible and was not
granted, or fails on its cells, on the walkway or on both. -/
def State.waitsOnCrossing (s : State) (c : Carrier) : Bool := s.routeOpen c

/-- The heads of the arm queues in arm order (R79, R80). -/
def State.headsInOrder (s : State) : List Carrier := s.jar.armOrder.filterMap s.head

/-- A head is in the layer that S1 points to (R80). -/
def Jar.favours (j : Jar) (c : Carrier) : Bool :=
  match j.s1 with
  | .priority => c.priority
  | .normal => !c.priority

/-- A record is the overdue carrier. -/
def State.isOverdue (s : State) (c : Carrier) : Bool :=
  match s.jar.overdue with
  | none => false
  | some o => o.id == c.id

/-- The candidate order of a round (R80). -/
def State.candidates (s : State) : List Carrier :=
  let heads := s.headsInOrder
  let rest := heads.filter fun c => !s.isOverdue c
  heads.filter s.isOverdue ++ rest.filter s.jar.favours ++ rest.filter fun c => !s.jar.favours c

/-! ## Skip counts and designation -/

/-- A record's skip count rises by 1, up to K (R82). -/
def Carrier.skipped (k : Nat) (c : Carrier) : Carrier := { c with skip := min k (c.skip + 1) }

/-- The head of an arm, when it is not carrier `id` and waits on the crossing, has its skip count raised (R82). -/
def State.raiseSkip (id : CarrierId) (s : State) (i : Arm) : State :=
  match s.head i with
  | none => s
  | some h =>
    if h.id != id && s.waitsOnCrossing h then
      s.putQueue i (updateRecord h.id (Carrier.skipped s.cfg.skipMax) (s.queue i))
    else s

/-- The skip counts after a grant to carrier `id` (R82). -/
def State.raiseSkips (id : CarrierId) (s : State) : State := Arm.list.foldl (State.raiseSkip id) s

/-- A head can be designated overdue: its skip count is K and it waits on the crossing (R83). -/
def State.designable (s : State) (c : Carrier) : Bool := c.skip == s.cfg.skipMax && s.waitsOnCrossing c

/-- A head is designated overdue (R53, R83). -/
def State.designate (c : Carrier) (s : State) : State :=
  let s := { s with jar := { s.jar with overdue := some ⟨c.id, c.arrival, c.exit⟩ } }
  let s := s.putQueue c.arrival (updateRecord c.id (fun r => { r with overdue := true }) (s.queue c.arrival))
  (s.mapCellsIn (cellSet c.arrival c.exit) (Cell.reserveFor c.id)).trigger

/-- JAR looks for a new overdue carrier when no designation is present (R83). -/
def State.seekOverdue (s : State) : State :=
  match s.jar.overdue with
  | some _ => s
  | none =>
    match s.headsInOrder.find? s.designable with
    | none => s
    | some c => s.designate c

/-- What follows each grant of a round and each follow-on grant at an entry: skip counts, designation, and a trigger
(R75, R82, R83). -/
def State.afterGrant (id : CarrierId) (s : State) : State := ((s.raiseSkips id).seekOverdue).trigger

/-! ## Follow-on grants -/

/-- A movement record offers a follow-on opportunity (R86). -/
def State.offersFollowOn (s : State) (m : Movement) : Bool :=
  (match m.carriers.getLast? with
    | none => false
    | some e => e.isCrossing)
  && m.followOns < s.cfg.platoon && m.carriers.length < 1 + s.cfg.platoon

/-- Condition 3 of R87: the overdue carrier does not need the record's cells. -/
def State.overdueAllows (s : State) (h : Carrier) (i j : Arm) : Bool :=
  match s.jar.overdue with
  | none => true
  | some o => o.id == h.id || !cellsMeet (cellSet o.arrival o.exit) (cellSet i j)

/-- The conditions of R87 for the head `h` of arm `i` and the record's exit arm `j`. -/
def State.followOnAllowed (s : State) (h : Carrier) (i j : Arm) : Bool :=
  h.state == .waiting && h.exit == j && s.inbound i && s.outbound j && s.overdueAllows h i j
    && s.walkPermits i j && s.admits j && s.granting

/-- The follow-on opportunity of the movement record with entry arm `i` is tested, and a grant that it decides is executed
(R86, R87). -/
def State.followOnTest (s : State) (i : Arm) : State :=
  match s.move i, s.head i with
  | none, _ => s
  | some _, none => s
  | some m, some h =>
    if s.offersFollowOn m && s.followOnAllowed h i m.exit then (s.executeFollowOn h).afterGrant h.id else s

/-! ## The round -/

/-- The switches after a grant in step 3 (R81). -/
def Jar.turnAway (c : Carrier) (j : Jar) : Jar :=
  { j with
    s1 := if c.priority then .normal else .priority
    s2 := match c.arrival with
      | 0 | 1 => .arms23
      | 2 | 3 => .arms01
    s3 := match c.arrival with
      | 0 => .upper
      | 1 => .lower
      | 2 | 3 => j.s3
    s4 := match c.arrival with
      | 2 => .upper
      | 3 => .lower
      | 0 | 1 => j.s4 }

/-- Step 1 of a round: the overdue carrier's exit must admit (R84). -/
def State.testOverdueExit (s : State) : State :=
  match s.jar.overdue with
  | none => s
  | some o => if s.admits o.exit then s else s.endOverdue

/-- Steps 3 and 4 of a round: the first eligible candidate is granted (R76, R80 to R83). -/
def State.grantCandidate (s : State) : State :=
  match s.candidates.find? s.eligible with
  | none => s
  | some c =>
    let s := s.executeGrant c false
    ({ s with jar := s.jar.turnAway c }).afterGrant c.id

/-- The round (R76). -/
def State.round (s : State) : State :=
  let s := ({ s with jar := { s.jar with due := false } }).testOverdueExit
  let s := s.jar.armOrder.foldl State.followOnTest s
  s.grantCandidate

end Sys2Proof.Machine
end

