-- ==== Sys2Proof/Machine/FloorLine.lean ====
section
/-! DEFINITION. The floor line interface (chapter 7): report entries and frames (R112, R115, R116, R186), when a report
falls due (R117, R119), abandonment (R123), backoff (R122), and the receiver's buffer (R125, R126). -/

namespace Sys2Proof.Machine

open Layout

/-- The transmitter under `f`. -/
def State.modTx (f : Transmitter → Transmitter) (s : State) : State :=
  { s with fli := { s.fli with tx := f s.fli.tx } }

/-- The receiver under `f`. -/
def State.modRx (f : Receiver → Receiver) (s : State) : State :=
  { s with fli := { s.fli with rx := f s.fli.rx } }

/-! ## Codes (R186) -/

/-- The code of a role in a report entry. A spur has no entry. -/
def roleCode : Role → Nat
  | .lock => 1
  | .far => 2
  | .spur => 0

def conditionCode : Condition → Nat
  | .active => 0
  | .isolated => 1
  | .unsure => 2

def directionCode : Direction → Nat
  | .free => 0
  | .outbound => 1
  | .inbound => 2
  | .draining => 3
  | .closing => 4

/-- The node state code of a part state; only RECOVERING, RUNNING and FAULTED are carried. -/
def nodeStateCode : PartState → Nat
  | .loading => 0
  | .unconfigured => 0
  | .settling => 0
  | .listening => 0
  | .recovering => 1
  | .running => 2
  | .faulted => 3

/-- The kind characters of the two frames. -/
def reportKind : Byte := 0x5A

def requestKind : Byte := 0x5B

/-! ## Frames -/

/-- The report entry of an arm, from its segment end as it stands (R112, R186). -/
def State.reportEntry (s : State) (i : Arm) : List Byte :=
  let g := s.seg i
  [byte (s.arm i).neighbour,
    byte (roleCode (s.role i) + 4 * Image.kindCode (s.arm i).kind + 16 * conditionCode g.condition),
    byte (match s.role i with
      | .lock => directionCode g.dir
      | .far => 0
      | .spur => 0),
    g.e, g.x, byte g.r, byte (s.demand i), byte g.occ, byte (s.arm i).capacity]
  ++ (match s.role i with
      | .lock => [g.limit, g.limitEpoch]
      | .far => [g.heldLimit, g.heldEpoch]
      | .spur => [0, 0])
  ++ [0]

/-- The arms that have a report entry, in ascending order (R115). -/
def State.reportArms (s : State) : List Arm := Arm.list.filter s.hasNeighbour

/-- The node state and hold byte (R115, R186). -/
def State.statusByte (s : State) : Byte := byte (nodeStateCode s.part + (if s.beacon then 4 else 0))

/-- A FLOOR REPORT built from current state (R115, R186). -/
def State.buildReport (s : State) : List Byte :=
  withCrc16 ([reportKind, byte s.cfg.nodeAddress, s.scu.epoch, s.statusByte, byte s.reportArms.length]
    ++ s.reportArms.flatMap s.reportEntry)

/-- A REPORT REQUEST (R116, R186). -/
def State.buildRequest (s : State) : List Byte :=
  withCrc16 [requestKind, byte s.cfg.nodeAddress, s.scu.epoch]

/-! ## Falling due -/

/-- A FLOOR REPORT falls due with the transmitter IDLE (R117). -/
def State.reportDue (s : State) : State :=
  s.modTx fun t => { t with state := .waiting, pending := some .report, attempts := 1 }

/-- A scheduled change report falls due as soon as the transmitter is IDLE, the spacing has elapsed and the part state is
one in which reports are sent (R119). -/
def State.pokeReport (s : State) : State :=
  if s.fli.tx.changeWaiting && s.part.reporting && s.fli.tx.state == .idle && s.fli.tx.spacing == .expired then
    s.reportDue
  else s

/-- The pending frame is gone and the transmitter IDLE (R117, R123). -/
def Transmitter.toIdle (t : Transmitter) : Transmitter :=
  { t with state := .idle, pending := none, attempts := 0, backoff := .stopped, build := [] }

/-- An abandonment starts the line-fault timer when it is not running (R123, R124). -/
def Transmitter.noteAbandoned (t : Transmitter) : Transmitter :=
  { t with lineFault := if t.lineFault = .stopped then .running 0 else t.lineFault }

/-- The backoff of R122, in bit times. -/
def backoffLength (address attempts : Nat) : Nat := 48 * (1 + (address + 5 * attempts) % 16)

/-- The part leaves LISTENING: a REPORT REQUEST in waiting or backoff is dropped, the periodic timer starts and a change
report is scheduled (R116, R118, R119, R128). -/
def State.startReports (s : State) : State :=
  (s.modTx fun t =>
    { (if t.pending = some .request ∧ t.state ≠ .sending then t.toIdle else t) with periodic := .running 0 }).scheduleChange

/-! ## Receiving -/

/-- The length the buffer's frame calls for, once it is known (R125, R126, R186). -/
def frameLength (buffer : List Byte) : Option Nat :=
  match buffer.head? with
  | none => none
  | some k =>
    if k = requestKind then some 5
    else if k = reportKind then
      (if 5 ≤ buffer.length then some (7 + 12 * byteAt buffer 4) else none)
    else none

/-- The buffer has come to hold an unknown kind, or an entry count above 4 (R125). -/
def unknownFrame (buffer : List Byte) : Bool :=
  match buffer.head? with
  | none => false
  | some k =>
    if k = requestKind then false
    else if k = reportKind then 5 ≤ buffer.length && 4 < byteAt buffer 4
    else true

/-- The entry at an offset of a frame (R186). -/
def entryAt (l : List Byte) (b : Nat) : RawEntry :=
  { address := l.getD b 0, codes := l.getD (b + 1) 0, dir := l.getD (b + 2) 0, e := l.getD (b + 3) 0,
    x := l.getD (b + 4) 0, r := l.getD (b + 5) 0, demand := l.getD (b + 6) 0, occ := l.getD (b + 7) 0,
    capacity := l.getD (b + 8) 0, lim := l.getD (b + 9) 0, limEpoch := l.getD (b + 10) 0, ignored := l.getD (b + 11) 0 }

/-- The twelve bytes of an entry (R186). -/
def entryBytes (e : RawEntry) : List Byte :=
  [e.address, e.codes, e.dir, e.e, e.x, e.r, e.demand, e.occ, e.capacity, e.lim, e.limEpoch, e.ignored]

/-- The checks of R126 on a completed frame: its length, then its CRC; the good frame when both pass. -/
def checkFrame (l : List Byte) (own : Bool) : Option GoodFrame :=
  if frameLength l = some l.length && crc16Ok l then
    (if l.head? = some requestKind then
      some (.request { sender := l.getD 1 0, epoch := l.getD 2 0 } own)
    else
      some (.report
        { sender := l.getD 1 0, epoch := l.getD 2 0, status := l.getD 3 0,
          entries := (List.range (byteAt l 4)).map fun k => entryAt l (5 + 12 * k) } own))
  else none

/-- The recessive bits at the end of a character whose stop bit is recessive, the stop bit included (R114). -/
def trailingRest (c : Byte) : Nat := 1 + ((charBits c).dropLast.reverse.takeWhile id).length

/-- A row of the line is taken with `rest` as the count of recessive bit times that it tells of (R114). Where the receiver
has itself read the bits of the row, its count goes on from them (log 7). -/
def Receiver.noteRest (rest : Nat) (x : Receiver) : Receiver :=
  if x.rows = 0 then { x with rest := rest } else { x with rows := x.rows - 1 }

/-- A character read by the receiver (R125). -/
def Receiver.takeChar (c : Byte) (stopOk : Bool) (x : Receiver) : Receiver :=
  let x := x.noteRest (if stopOk then trailingRest c else 0)
  let store (buffer : List Byte) (whole : Bool) : Receiver :=
    if stopOk then
      (if unknownFrame buffer then { x with state := .hunt, buffer := [], sentWhole := whole }
      else if frameLength buffer = some buffer.length then
        { x with state := .tail, buffer := buffer, sentWhole := whole }
      else { x with state := .frame, buffer := buffer, sentWhole := whole })
    else { x with state := .hunt, buffer := [], sentWhole := whole }
  match x.state with
  | .hunt => x
  | .ready => store [c] false
  | .frame => store (x.buffer ++ [c]) x.sentWhole
  | .tail => { x with state := .hunt, buffer := [] }

/-- The line becomes idle (R114, R125, R126). -/
def Receiver.goIdle (x : Receiver) : Receiver :=
  let x := x.noteRest (max 12 x.rest)
  match x.state with
  | .hunt => { x with state := .ready, sentWhole := false }
  | .ready => x
  | .frame => x
  | .tail =>
    { x with
      state := .ready
      buffer := []
      sentWhole := false
      good := x.good ++ (checkFrame x.buffer x.sentWhole).toList }

/-- A rest of more than 30 bit times (R125). -/
def Receiver.gap (x : Receiver) : Receiver :=
  let x := x.noteRest (max 31 x.rest)
  match x.state with
  | .hunt => x
  | .ready => x
  | .frame => { x with state := .hunt, buffer := [] }
  | .tail => x

end Sys2Proof.Machine
end

