-- ==== Sys2Proof/Machine/Holds.lean ====
section
/-! DEFINITION. The hold unit (chapter 10): hold entry (R156), a cause added (R152, R157), the release condition and the
settle timer (R158), release (R159), entry into FAULTED (R161), the overrun check with rescue and overrun (R153 to R155). -/

namespace Sys2Proof.Machine

/-- The hold unit's state under `f`. -/
def State.modHld (f : Hld → Hld) (s : State) : State := { s with hld := f s.hld }

/-- A hold cause (R151). -/
inductive HoldCause where
  | overrun
  | unauthorised
  | operator
deriving DecidableEq, Repr

/-- The set with a cause in it. -/
def Hld.add (c : HoldCause) (h : Hld) : Hld :=
  match c with
  | .overrun => { h with overrun := true }
  | .unauthorised => { h with unauthorised := true }
  | .operator => { h with operator := true }

/-! ## Hold entry -/

/-- A GRANTED entry's carrier is committed, by the commitment test on its record (R50, R156). -/
def State.entryCommitted (s : State) (i : Arm) (id : CarrierId) : Bool :=
  match s.recordOn i id with
  | none => false
  | some c => c.committed s.cfg

/-- Step 3 of hold entry for one entry: a GRANTED entry whose carrier is not committed has its grant withdrawn, and its
record becomes WAITING or MUTE (R156). -/
def State.holdEntryGrant (i : Arm) (s : State) (e : Entry) : State :=
  if e.status.isGranted && !s.entryCommitted i e.id then
    (s.withdrawGrant e.id).onRecord i e.id Carrier.toWaiting
  else s

/-- Step 3 of hold entry: every GRANTED entry of every movement record is tested (R156). -/
def State.holdGrants (s : State) : State :=
  Arm.list.foldl (fun t i =>
    match t.move i with
    | none => t
    | some m => m.carriers.foldl (State.holdEntryGrant i) t) s

/-- Step 4 of hold entry: a CLEARANCE falls due for every queued record, head first (R20, R156). -/
def State.clearanceAll (s : State) : State :=
  Arm.list.foldl (fun t i => (t.queue i).foldl (fun u c => u.clearanceDue i c.id) t) s

/-- Round due becomes no (R75). -/
def State.dropRound (s : State) : State := { s with jar := { s.jar with due := false } }

/-- Hold entry (R156), the cause already in the set. Its outputs (step 6) and the test of the release condition (step 7)
are those of every event's end. -/
def State.holdEntry (s : State) : State :=
  let s := s.endOverdue.dropRound
  let s := if s.heldForCarrier then s.mapCells Cell.toEmergency else s
  s.holdGrants.clearanceAll.suspendWalkway

/-- A cause is added to a set that is not empty (R157). The settle timer is stopped when it has to start from 0; the test
of the release condition at the event's end starts it. -/
def State.addToHold (c : HoldCause) (s : State) : State :=
  match c with
  | .operator => s.modHld (Hld.add c)
  | .overrun | .unauthorised =>
    if s.heldForCarrier then s.modHld fun h => { h.add c with settle := .stopped }
    else (s.modHld (Hld.add c)).mapCells Cell.toEmergency

/-- A cause is added to the hold-cause set (R152). -/
def State.addCause (c : HoldCause) (s : State) : State :=
  match s.part with
  | .listening | .recovering | .running =>
    if s.held then s.addToHold c else (s.modHld (Hld.add c)).holdEntry
  | .loading | .unconfigured | .settling | .faulted => s.modHld (Hld.add c)

/-! ## Release -/

/-- The head of a queue is committed without a grant (R158, condition 2). -/
def State.headRuns (s : State) (i : Arm) : Bool :=
  match s.head i with
  | none => false
  | some h => h.state != .granted && h.committed s.cfg

/-- The box sensor is idle, or not fitted (R72). -/
def State.boxIdle (s : State) : Bool := !s.cfg.boxFitted || !s.xu.box.level

/-- The release condition (R158). -/
def State.releasable (s : State) : Bool :=
  s.xu.unmatched.isEmpty && !(Arm.list.any s.headRuns) && s.boxIdle

/-- The release condition is tested, and the settle timer starts, stops or runs on (R158). -/
def State.releaseTest (s : State) : State :=
  if s.heldForCarrier && s.part == .running then
    if s.releasable then
      (if s.hld.settle.isRunning then s else s.modHld fun h => { h with settle := .running 0 })
    else s.modHld fun h => { h with settle := .stopped }
  else s

/-- Release (R159), the hold-cause set already empty. -/
def State.releaseHold (s : State) : State :=
  if s.part == .running then ((s.mapCells Cell.fromEmergency).startInterval).trigger else s

/-! ## FAULTED -/

/-- Entry into FAULTED (R161), with what the blocks do at that change of part state (R111, R128, R149, R170, R171). From
FAULTED nothing happens. -/
def State.enterFaulted (s : State) : State :=
  if s.part == .faulted then s
  else
    let s := if s.part == .listening then s.startReports else s
    let s := s.closeLimits.setPart .faulted
    let s := { s with scu := { s.scu with listening := .stopped, crossingQuiet := .stopped } }
    let s := s.modHld fun h => { h with settle := .stopped }
    let s := s.endOverdue.dropRound
    let s := s.mapCells Cell.toEmergency
    s.holdGrants.clearanceAll.suspendWalkway

/-! ## Overrun check -/

/-- The rescue conditions of R154 for the head record `c`. -/
def State.rescuable (s : State) (c : Carrier) : Bool :=
  s.granting && s.inbound c.arrival && s.outbound c.exit && s.permitted c.arrival c.exit
    && s.cellsTakable c.arrival c.exit c.id && s.walkPermitsRescue c.arrival c.exit && s.admits c.exit

/-- The overrun check on carrier `id` of an arm's queue (R153 to R155). It acts on a head record without a grant, in
RUNNING. -/
def State.overrunCheck (i : Arm) (id : CarrierId) (s : State) : State :=
  match s.head i with
  | none => s
  | some c =>
    if c.id == id && c.state != .granted && s.part == .running && c.committed s.cfg then
      if s.rescuable c then (s.executeGrant c true).raise .rescue
      else (s.raise .overrun).addCause .overrun
    else s

end Sys2Proof.Machine
end

