-- ==== Sys2Proof/Machine/Event.lean ====
section
/-! DEFINITION. What every event does besides its own effect: while RST_N is asserted nothing is taken (R163); at the end
of an event, what depends on a comparison of the state before and after it is brought up to date: changes of admission
(R97), the change waiting flag and the report it makes due (R119), the quiet timers (R108), the release condition
(R158). -/

namespace Sys2Proof.Machine

/-- A segment end's admission test passes now and failed before: a change of admission (R97). -/
def State.admissionOpened (old s : State) : Bool := Arm.list.any fun i => !old.admits i && s.admits i

/-- The fields of a segment end whose every change schedules a change report, whether or not the arm has an entry (R92,
R93, R101, log 14). -/
def SegEnd.counts (g : SegEnd) : Byte × Byte × Nat × Direction := (g.e, g.x, g.r, g.dir)

/-- The contents of a report have changed: an entry, the node state or the hold flag (R112, R119); or a count of a spur. -/
def State.reportChanged (old s : State) : Bool :=
  old.part.working && s.part.working &&
    (old.part != s.part || old.beacon != s.beacon
      || Arm.list.any fun i => s.present i &&
          ((old.seg i).counts != (s.seg i).counts || (s.hasNeighbour i && old.reportEntry i != s.reportEntry i)))

/-- A quiet timer runs at this end while its unsure flag is set (R108). -/
def State.provesQuiet (s : State) (i : Arm) : Bool := s.present i && s.role i != .far && (s.arm i).quietProof

/-- The quiet timer after a change of the segment end from `old` to `new` (R108): stopped when the unsure flag is clear,
started when the flag has been set, restarted at a change of E, X, E_n or X_n while it runs. -/
def quietAfter (old new : SegEnd) : Timer :=
  if new.unsure then
    (if old.unsure then
      (if new.quiet.isRunning && (old.e != new.e || old.x != new.x || old.eN != new.eN || old.xN != new.xN) then
        .running 0
      else new.quiet)
    else .running 0)
  else .stopped

/-- The quiet timers at the end of an event (R108). -/
def State.settleQuiet (old s : State) : State :=
  if old.part.working && s.part.working then
    { s with segs := .build fun i =>
        if s.provesQuiet i then { s.seg i with quiet := quietAfter (old.seg i) (s.seg i) } else s.seg i }
  else s

/-- The end of an event that has led from `old` to `s`. -/
def State.finish (old s : State) : State :=
  let s := if State.admissionOpened old s then s.trigger else s
  let s := if State.reportChanged old s then s.scheduleChange else s
  ((State.settleQuiet old s).releaseTest).pokeReport

/-- An event with the effect `f` on what no comparison at an event's end reads (a link, the receiver, the store, the
maintenance port), or one that ends in a restart: none while RST_N is asserted (R163). -/
def State.plainEvent (f : State → State) (s : State) : State := if s.scu.rstHeld then s else f s

/-- An event with the effect `f`: none while RST_N is asserted (R163). -/
def State.event (f : State → State) (s : State) : State :=
  if s.scu.rstHeld then s else State.finish s (f s)

end Sys2Proof.Machine
end

