-- ==== Sys2Proof/Machine/Neighbours.lean ====
section
/-! DEFINITION. The neighbour monitor (chapter 8): which frames it takes (R131), epochs and restarts (R133, R134), base
states (R135), mismatches (R136, R137), the taking of a report (R138), and silence (R132). The sorting of good frames by
sender (R127) stands here too. -/

namespace Sys2Proof.Machine

/-- The neighbour record of an arm under `f`. -/
def State.modNbr (i : Arm) (f : Neighbour → Neighbour) (s : State) : State :=
  { s with nbrs := s.nbrs.set i (f (s.nbr i)) }

/-- The node state in a status byte, when its code is used (R186). -/
def nodeState (status : Byte) : Option NodeState :=
  match status.toNat % 4 with
  | 1 => some .recovering
  | 2 => some .running
  | 3 => some .faulted
  | _ => none

/-- The entry of a report addressed to a node: the first in frame order (R127). -/
def FloorReport.entryFor (address : Nat) (f : FloorReport) : Option RawEntry :=
  f.entries.find? fun e => e.address.toNat == address

/-- The arm whose neighbour has an address; 0 is no address (R127). -/
def State.armOfNeighbour (s : State) (address : Nat) : Option Arm :=
  Arm.list.find? fun i => s.hasNeighbour i && (s.arm i).neighbour == address

/-- NBM takes a report with this epoch, status byte and entry for this node (R131). -/
def reportAcceptable (epoch status : Byte) (entry : Option RawEntry) : Bool :=
  epoch != 0 && (nodeState status).isSome && (match entry with
    | none => true
    | some e => entryAcceptable e)

/-- What a detected restart does to the record: the epoch, the capacity flag, the base state (R133, R134). -/
def Neighbour.noteRestart (epoch : Byte) (n : Neighbour) : Neighbour :=
  { n with
    epoch := some epoch
    capFlag := false
    base := if n.base = .none then .none else .newEpoch }

/-- The epoch comparison at a FLOOR REPORT (R133). -/
def State.compareEpoch (i : Arm) (epoch : Byte) (s : State) : State :=
  match (s.nbr i).epoch with
  | none => s.modNbr i fun n => { n with epoch := some epoch }
  | some old => if old = epoch then s else (s.modNbr i (Neighbour.noteRestart epoch)).raise .neighbourRestart

/-- The mismatch a report shows for an arm (R136). -/
def State.mismatchOf (s : State) (i : Arm) (entry : Option RawEntry) : Mismatch :=
  match entry with
  | none => .noEntry
  | some e => if entryKind e = some (s.arm i).kind then .none else .kind

/-- The mismatch is set anew; CONFIG_MISMATCH is raised when it passes to another value than none; the arm becomes
isolating while it is not none (R130, R136). -/
def State.setMismatch (i : Arm) (m : Mismatch) (s : State) : State :=
  let changed := m != .none && (s.nbr i).mismatch != m
  let s := s.modNbr i fun n => { n with mismatch := m }
  let s := if changed then s.raise .configMismatch else s
  if m = .none then s else s.isolate i

/-- The comparison of capacities at an entry (R137). -/
def State.compareCapacity (i : Arm) (e : RawEntry) (s : State) : State :=
  if e.capacity.toNat ≠ (s.arm i).capacity ∧ (s.nbr i).capFlag = false then
    (s.modNbr i fun n => { n with capFlag := true }).raise .capacityMismatch
  else s

/-- The kind an entry is handed as, from the base state (R135). -/
def BaseState.entryKind : BaseState → EntryKind
  | .none => .first
  | .newEpoch => .newEpoch
  | .current => .ordinary

/-- Step 6 of the taking of a report: the entry is compared, stored and handed to SGU (R135, R137, R138). -/
def State.handEntry (i : Arm) (epoch : Byte) (e : RawEntry) (s : State) : State :=
  let s := s.compareCapacity i e
  let kind := (s.nbr i).base.entryKind
  (s.modNbr i fun n => { n with entry := some e, base := .current }).takeEntry i kind epoch e

/-- A FLOOR REPORT that R131 does not discard is taken, in the order of R138. -/
def State.takeReport (i : Arm) (f : FloorReport) (entry : Option RawEntry) (s : State) : State :=
  let s := s.modNbr i fun n => { n with silence := 0, late := false }
  let s := s.compareEpoch i f.epoch
  let s := s.modNbr i fun n =>
    { n with state := .live, node := (nodeState f.status).map fun p => (p, f.status.getLsbD 2) }
  let s := s.setMismatch i (s.mismatchOf i entry)
  match entry with
  | none => s
  | some e => s.handEntry i f.epoch e

/-- A REPORT REQUEST that R131 does not discard is taken (R134), and schedules a change report while reports are sent
(R119). -/
def State.takeRequest (i : Arm) (epoch : Byte) (s : State) : State :=
  let s := match (s.nbr i).epoch with
    | none => s.modNbr i fun n => { n with epoch := some epoch }
    | some _ =>
      ((s.modNbr i fun n =>
        { n.noteRestart epoch with state := .awaited, silence := 0, late := false }).raise .neighbourRestart).isolate i
  if s.part.reporting then s.scheduleChange else s

/-- The silence time of an arm's neighbour record reaches the silence window (R132). -/
def State.neighbourSilence (i : Arm) (s : State) : State :=
  let s := s.modNbr i fun n => { n with silence := max n.silence (silenceWindow s.cfg) }
  match (s.nbr i).state with
  | .live => ((s.modNbr i fun n => { n with state := .silent }).raise .neighbourSilent).isolate i
  | .awaited =>
    if (s.nbr i).late then s else (s.modNbr i fun n => { n with late := true }).raise .neighbourSilent
  | .silent => s

end Sys2Proof.Machine
end

