-- ==== Sys2Proof/Machine/StartUp.lean ====
section
/-! DEFINITION. The start and clock unit (chapter 11): restarts (R163), LOADING (R165, R166), the timebase switch and entry
into LISTENING (R167, R168), entry into RECOVERING (R170) and RUNNING (R172, R173). -/

namespace Sys2Proof.Machine

/-- The start and clock unit under `f`. -/
def State.modScu (f : Scu → Scu) (s : State) : State := { s with scu := f s.scu }

/-- The store after a restart: a write in progress is broken off (R166). -/
def Scu.storeAfterRestart (u : Scu) : Store :=
  match u.writing with
  | none => u.store
  | some _ => .partlyWritten

/-- A restart: every block at its restart values (R163). The oscillator's count, the store, the level of RST_N, the model's
clock and the queue are not returned. -/
def State.restart (cause : RestartCause) (s : State) : State :=
  .fresh cause s.scu.osc s.scu.storeAfterRestart s.scu.rstHeld s.now s.pending

/-! ## LOADING -/

/-- The segment-end record of an arm as LOADING leaves it (R90), with the fixed direction of a one-way lock end (R103). -/
def State.loadedSeg (s : State) (i : Arm) : SegEnd :=
  let g := SegEnd.initial (s.hasNeighbour i)
  match s.fixedDirection i with
  | none => g
  | some d => { g with dir := d }

/-- LOADING ends with a working configuration (R165). -/
def State.loaded (c : JunctionConfig) (s : State) : State :=
  let s := s.modScu fun u =>
    { u with part := .settling, load := .loaded, cfg := c, cfgCrc := some (Image.crc c), monitor := true }
  { s with segs := .build s.loadedSeg, wkp := .initial c }

/-- The image that LOADING finds with a correct CRC and no failed check, as the working configuration (R14, R165). -/
def Store.load : Store → Option JunctionConfig
  | .neverWritten => none
  | .partlyWritten => none
  | .written image => Image.load image

/-- LOADING ends (R165, R166). -/
def State.endLoading (cfgLow : Bool) (s : State) : State :=
  if cfgLow then s.modScu fun u => { u with part := .unconfigured, load := .bypassed }
  else match s.scu.store.load with
    | some c => s.loaded c
    | none => (s.modScu fun u => { u with part := .unconfigured, load := .refused }).raise .configFault

/-! ## LISTENING and RECOVERING -/

/-- The reference periods of a stage (R167). -/
def stagePeriods (stage : Nat) : Nat :=
  match stage with
  | 0 => 0
  | 1 => 2048
  | 2 => 8192
  | 3 => 16384
  | 4 => 32768
  | _ => 65536

/-- An input set from its raw level at entry into LISTENING (R60, R144). -/
def Debounce.setFrom (raw : Bool) : Debounce := { level := raw, raw := raw, timer := .stopped }

/-- A filter set from its raw level at entry into LISTENING; an input found active is supervised at once (R60). -/
def Filter.setFrom (raw : Bool) : Filter :=
  { input := .setFrom raw, stuckTimer := if raw then .running 0 else .stopped, stuck := false }

/-- The filters at entry into LISTENING (R60, R144). Inputs of absent arms, and BOX when it is not fitted, keep their
restart values (R1, R13). -/
def State.startFilters (raw : RawLevels) (s : State) : State :=
  { s with
    xu := { s.xu with
      ent := .build fun i => if s.present i then Filter.setFrom (raw.ent.get i) else .initial
      ext := .build fun i => if s.present i then Filter.setFrom (raw.ext.get i) else .initial
      box := if s.cfg.boxFitted then Filter.setFrom raw.box else .initial }
    wkp := { s.wkp with button := .setFrom raw.button } }

/-- The quiet timers at entry into LISTENING (R108). -/
def State.startQuiet (s : State) : State :=
  { s with segs := .build fun i =>
      if s.provesQuiet i && (s.seg i).unsure then { s.seg i with quiet := .running 0 } else s.seg i }

/-- Entry into RECOVERING (R170): FLI starts to report. -/
def State.enterRecovering (s : State) : State :=
  ((s.modScu fun u => { u with part := .recovering, listening := .stopped }).startReports)

/-- LISTENING ends when every neighbour record is LIVE (R170). -/
def State.listenTest (s : State) : State :=
  if s.part == .listening && s.allLive then s.enterRecovering else s

/-- The epoch taken from the low 8 bits of the oscillator's count (R168). -/
def epochOf (osc : Byte) : Byte := if osc = 0 then 1 else osc

/-- FLI starts to work, its one REPORT REQUEST pending, and the silence times start (R114, R116, R125, R130). -/
def State.startLine (s : State) : State :=
  { s with
    fli := { tx := { s.fli.tx with state := .waiting, pending := some .request, attempts := 1 }, rx := .initial }
    nbrs := s.nbrs.map fun n => { n with silence := 0, late := false } }

/-- The timebase switch and entry into LISTENING (R114, R116, R125, R130, R168, R170, R171, R174). -/
def State.enterListening (osc : Byte) (raw : RawLevels) (s : State) : State :=
  let s := s.modScu fun u =>
    { u with
      part := .listening
      onReference := true
      osc := osc
      epoch := epochOf osc
      listening := .running 0
      crossingQuiet := if u.cfg.crossingProof then .running 0 else .stopped
      recheck := .running 0 }
  let s := s.startLine
  ((s.startFilters raw).startQuiet).listenTest

/-- A stage boundary is reached in SETTLING (R167, R168). -/
def State.reachStage (osc : Byte) (raw : RawLevels) (s : State) : State :=
  let stage := s.scu.stages + 1
  let s := s.modScu fun u => { u with stages := stage, refCount := stagePeriods stage }
  if stage = s.cfg.refStage then s.enterListening osc raw else s

/-! ## RUNNING -/

/-- Crossing resolution and entry into RUNNING (R172, R173). -/
def State.resolveCrossing (s : State) : State :=
  let s := (s.mapCells Cell.resolve).modScu fun u => { u with part := .running, crossingQuiet := .stopped }
  (s.trigger).startInterval

end Sys2Proof.Machine
end

