-- ==== Sys2Proof/Machine/FloorEvents.lean ====
section
/-! DEFINITION. The meanings of the floor line's commands (chapters 7 and 8): what the line and the receiver do, the
attempts of the transmitter, its timers, the good frames, and the silence of a neighbour. -/

namespace Sys2Proof.Machine

/-! ## The receiver -/

/-- LINE_IDLE (R114, R125): the line has been recessive for 12 bit times; FLI works. -/
def execLineIdle (s : State) : Host.Outcome State Fault Refusal :=
  .next (s.plainEvent fun s => if s.part.working then s.modRx Receiver.goIdle else s)

/-- RECEIVE_GAP (R125): the line has rested for more than 30 bit times. -/
def execReceiveGap (s : State) : Host.Outcome State Fault Refusal :=
  .next (s.plainEvent fun s => if s.part.working then s.modRx Receiver.gap else s)

/-- FLOOR_CHARACTER_RECEIVED (R113, R125). -/
def execFloorCharacterReceived (char : Byte) (stopOk : Bool) (s : State) : Host.Outcome State Fault Refusal :=
  .next (s.plainEvent fun s => if s.part.working then s.modRx (Receiver.takeChar char stopOk) else s)

/-! ## Attempts -/

/-- The frame of an attempt, built from the state at its start (R115, R116, R120). -/
def State.buildFrame (s : State) : FrameKind → List Byte
  | .report => s.buildReport
  | .request => s.buildRequest

/-- An attempt at a frame starts (R120): the frame is built, and a report takes the change waiting flag with it. The line
becomes busy when the first start bit is read back as dominant, and not before (R114). -/
def State.startAttempt (k : FrameKind) (s : State) : State :=
  s.modTx fun t =>
    { t with
      state := .sending
      build := s.buildFrame k
      changeWaiting := if k = .report then false else t.changeWaiting
      attemptAt := s.now }

/-- ATTEMPT_START (R120): in WAITING, the line idle. -/
def execAttemptStart (s : State) : Host.Outcome State Fault Refusal :=
  .next (s.event fun s =>
    match s.fli.tx.pending with
    | none => s
    | some k => if s.fli.tx.state == .waiting && s.lineIdle then s.startAttempt k else s)

/-- The transmitter when its frame has been sent (R117, R118, R119, R124); `now` is the time. -/
def Transmitter.sent (now : Nat) (t : Transmitter) : Transmitter :=
  { t.toIdle with
    lastStart := some t.attemptAt
    spacing := .running (now - t.attemptAt)
    periodic := if t.pending = some .report then .running (now - t.attemptAt) else t.periodic
    lineFault := .stopped
    faultRaised := false }

/-- FRAME_SENT (R117): in SENDING, every bit read back as sent; the receiver knows the frame as this node's own (R127). -/
def execFrameSent (s : State) : Host.Outcome State Fault Refusal :=
  .next (s.event fun s =>
    if s.fli.tx.state == .sending then
      (s.modTx (Transmitter.sent s.now)).modRx fun x => { x with sentWhole := true }
    else s)

/-- A backoff starts after an attempt that lost the line (R121, R122). -/
def Transmitter.backOff (address : Nat) (t : Transmitter) : Transmitter :=
  { t with state := .backoff, backoff := .running 0, backoffBits := backoffLength address t.attempts, build := [] }

/-- The attempt on the line is lost (R116, R121, R123): a request is dropped outside LISTENING; the 15th lost attempt
abandons the frame; otherwise the transmitter backs off. -/
def State.loseLine (s : State) : State :=
  if s.fli.tx.pending = some .request ∧ s.part ≠ .listening then s.modTx Transmitter.toIdle
  else if 15 ≤ s.fli.tx.attempts then s.modTx fun t => t.noteAbandoned.toIdle
  else s.modTx (Transmitter.backOff s.cfg.nodeAddress)

/-- LOST_LINE (R121): in SENDING. -/
def execLostLine (s : State) : Host.Outcome State Fault Refusal :=
  .next (s.event fun s => if s.fli.tx.state == .sending then s.loseLine else s)

/-- BACKOFF_EXPIRY (R122): in BACKOFF, while the backoff timer runs. -/
def execBackoffExpiry (s : State) : Host.Outcome State Fault Refusal :=
  .next (s.event fun s =>
    if s.fli.tx.state == .backoff && s.fli.tx.backoff.isRunning then
      s.modTx fun t => { t with state := .waiting, attempts := t.attempts + 1, backoff := .stopped }
    else s)

/-! ## The transmitter's timers -/

/-- A pending report is abandoned and replaced at the periodic timer's expiry (R118, R123). -/
def Transmitter.replaceReport (t : Transmitter) : Transmitter :=
  { t.noteAbandoned with state := .waiting, pending := some .report, attempts := 1, backoff := .stopped }

/-- What the periodic timer's expiry does to the transmitter (R118). -/
def State.periodicEnds (s : State) : State :=
  let s := s.modTx fun t => { t with periodic := .running 0 }
  match s.fli.tx.state with
  | .idle => s.reportDue
  | .waiting | .backoff => if s.fli.tx.pending = some .report then s.modTx Transmitter.replaceReport else s
  | .sending => s

/-- PERIODIC_TIMER_EXPIRY (R118): while the periodic timer runs. -/
def execPeriodicTimerExpiry (s : State) : Host.Outcome State Fault Refusal :=
  .next (s.event fun s => if s.fli.tx.periodic.isRunning then s.periodicEnds else s)

/-- SPACING_ELAPSED (R119): while the spacing timer runs. A report that waits for it falls due at the event's end. -/
def execSpacingElapsed (s : State) : Host.Outcome State Fault Refusal :=
  .next (s.event fun s =>
    if s.fli.tx.spacing.isRunning then s.modTx fun t => { t with spacing := .expired } else s)

/-- LINE_FAULT (R124): while the line-fault timer runs and its event has not been raised; the timer runs on. -/
def execLineFault (s : State) : Host.Outcome State Fault Refusal :=
  .next (s.event fun s =>
    if s.fli.tx.lineFault.isRunning && !s.fli.tx.faultRaised then
      (s.modTx fun t => { t with faultRaised := true }).raise .lineFault
    else s)

/-! ## Good frames -/

/-- A good frame leaves the receiver's list when it stands at its front (log 8). -/
def Receiver.handOver (frame : GoodFrame) (x : Receiver) : Receiver :=
  { x with good := if x.good.head? = some frame then x.good.tail else x.good }

/-- A good frame is sorted by its sender address (R127); `take` is what NBM does with a frame of an arm's neighbour. -/
def State.sortFrame (sender : Byte) (own : Bool) (take : Arm → State → State) (s : State) : State :=
  if sender.toNat = s.cfg.nodeAddress then
    (if own then s else (s.raise .addressClash).enterFaulted)
  else match s.armOfNeighbour sender.toNat with
    | none => s
    | some i => take i s

/-- A FLOOR REPORT accepted from the neighbour of an arm (R131, R138); LISTENING may end (R170). -/
def State.nbmReport (f : FloorReport) (i : Arm) (s : State) : State :=
  let entry := FloorReport.entryFor s.cfg.nodeAddress f
  if reportAcceptable f.epoch f.status entry then (s.takeReport i f entry).listenTest else s

/-- FLOOR_REPORT_RECEIVED (R127, R138). -/
def execFloorReportReceived (frame : FloorReport) (own : Bool) (s : State) : Host.Outcome State Fault Refusal :=
  .next (s.event fun s =>
    if s.part.working then
      (s.modRx (Receiver.handOver (.report frame own))).sortFrame frame.sender own (State.nbmReport frame)
    else s)

/-- A REPORT REQUEST accepted from the neighbour of an arm (R131, R134). -/
def State.nbmRequest (f : ReportRequest) (i : Arm) (s : State) : State :=
  if f.epoch = 0 then s else s.takeRequest i f.epoch

/-- REPORT_REQUEST_RECEIVED (R127, R134). -/
def execReportRequestReceived (frame : ReportRequest) (own : Bool) (s : State) : Host.Outcome State Fault Refusal :=
  .next (s.event fun s =>
    if s.part.working then
      (s.modRx (Receiver.handOver (.request frame own))).sortFrame frame.sender own (State.nbmRequest frame)
    else s)

/-- NEIGHBOUR_SILENT (R132): the silence time of an arm's neighbour record reaches the silence window. -/
def execNeighbourSilent (arm : Arm) (s : State) : Host.Outcome State Fault Refusal :=
  .next (s.event fun s => if s.part.working && s.hasNeighbour arm then s.neighbourSilence arm else s)

end Sys2Proof.Machine
end

