-- ==== Sys2Proof/Machine/CarrierLink.lean ====
section
/-! DEFINITION. The meanings of the arm-link commands (chapter 2): ANNOUNCE, POSITION, WITHDRAW, the sending of items, the
silence of a carrier, and messages that are discarded. -/

namespace Sys2Proof.Machine

/-- A message that has passed the checks of R19 arrives on a link (R18, R21): the link's receiver hunts again; what is done
depends on the arm and the part state; `handle` is the handling in RECOVERING and RUNNING. -/
def State.onMessage (link : Arm) (id : CarrierId) (handle : State → State) (s : State) : State :=
  let s := s.huntLink link
  if s.present link then
    match s.part with
    | .loading | .unconfigured | .settling => s
    | .listening | .faulted => s.refusalDue link id .notReady
    | .recovering | .running => handle s
  else s

/-! ## ANNOUNCE -/

/-- The fields of an ANNOUNCE, clamped as they are stored (R22). The length is kept as received for the test of R26. -/
structure Request where
  cls : Fin 4
  priority : Bool
  exit : Arm
  length : Nat
  distance : Nat
  speed : Nat
deriving DecidableEq, Repr

/-- The request of a received ANNOUNCE: a speed above 400 is stored as 400 (R22). -/
def requestOf (cls : Fin 4) (priority : Bool) (exit : Arm) (length distance speed : Half) : Request :=
  { cls := cls, priority := priority, exit := exit, length := length.toNat, distance := distance.toNat,
    speed := min 400 speed.toNat }

/-- A request from arm `i` for an exit that has no route (R7, R26). -/
def State.noRoute (s : State) (i exit : Arm) : Bool := exit == i || !s.outbound exit || !s.permitted i exit

/-- The first test of R26 that refuses a new ANNOUNCE. -/
def State.announceRefusal (s : State) (i : Arm) (id : CarrierId) (q : Request) : Option RefusalReason :=
  if !s.inbound i then some .armClosed
  else if id == 0 || 400 < q.length then some .badField
  else if s.noRoute i q.exit then some .noRoute
  else if (s.queuedOn id).isSome || s.inMovement id || s.inUnmatched id then some .duplicate
  else if s.queueCapacity i ≤ (s.queue i).length then some .armFull
  else none

/-- The record a new ANNOUNCE creates (R27); a length below 50 is stored as 50 (R22). -/
def newRecord (i : Arm) (id : CarrierId) (q : Request) : Carrier :=
  { id := id, arrival := i, cls := q.cls, priority := q.priority, exit := q.exit, length := max 50 q.length,
    distance := q.distance, speed := q.speed, silence := 0, state := .waiting, silent := false, skip := 0,
    overdue := false }

/-- A record takes the fields of a re-announce (R28); a change of exit returns its skip count to 0 (R82). -/
def Carrier.retake (q : Request) (c : Carrier) : Carrier :=
  { c with
    cls := q.cls, priority := q.priority, exit := q.exit, length := max 50 q.length, distance := q.distance,
    speed := q.speed, skip := if c.exit = q.exit then c.skip else 0 }

/-- A new ANNOUNCE (R26, R27). -/
def State.announceNew (i : Arm) (id : CarrierId) (q : Request) (s : State) : State :=
  match s.announceRefusal i id q with
  | some reason => s.refusalDue i id reason
  | none =>
    ((s.onQueue i (insertRecord (newRecord i id q))).clearanceDue i id).overrunCheck i id

/-- A re-announce that is accepted (R28). -/
def State.acceptReannounce (i : Arm) (id : CarrierId) (q : Request) (s : State) : State :=
  ((s.onRecord i id fun c => (c.retake q).heard.wake).clearanceDue i id).overrunCheck i id

/-- A re-announce that asks a GRANTED record `c` for another exit (R29). -/
def State.reannounceUnderGrant (i : Arm) (c : Carrier) (q : Request) (s : State) : State :=
  if committed s.cfg c.cls q.distance q.speed then
    (((s.refusalDue i c.id .committed).onRecord i c.id fun r =>
      { r with distance := q.distance, speed := q.speed }.heard).clearanceDue i c.id)
  else
    ((((s.withdrawGrant c.id).onRecord i c.id fun r =>
      { (r.retake q).heard with state := .waiting, skip := 0 }).clearanceDue i c.id).overrunCheck i c.id)

/-- A re-announce of the record `c` (R28, R29). -/
def State.reannounce (i : Arm) (c : Carrier) (q : Request) (s : State) : State :=
  if 400 < q.length then s.refusalDue i c.id .badField
  else if s.noRoute i q.exit then s.refusalDue i c.id .noRoute
  else if c.state == .granted && c.exit != q.exit then s.reannounceUnderGrant i c q
  else s.acceptReannounce i c.id q

/-- An ANNOUNCE handled in RECOVERING or RUNNING (R26 to R29). -/
def State.handleAnnounce (i : Arm) (id : CarrierId) (q : Request) (s : State) : State :=
  match s.recordOn i id with
  | some c => s.reannounce i c q
  | none => s.announceNew i id q

/-- ANNOUNCE (R21, R26 to R29). -/
def execAnnounce (link : Arm) (id : CarrierId) (cls : Fin 4) (priority : Bool) (exit : Arm)
    (length distance speed : Half) (s : State) : Host.Outcome State Fault Refusal :=
  .next (s.event (State.onMessage link id
    (State.handleAnnounce link id (requestOf cls priority exit length distance speed))))

/-! ## POSITION -/

/-- The lapse of carrier `id`'s grant has been deferred (R69). -/
def State.lapseDeferred (s : State) (id : CarrierId) : Bool :=
  match (s.grantOf id).bind s.move with
  | none => false
  | some m => m.carriers.any fun e => e.id == id && (match e.status with
      | .granted _ deferred => deferred
      | .crossing _ _ => false)

/-- The deferred lapse of carrier `id` on arm `i` is tested again on its updated record (R69). -/
def State.retestDeferred (i : Arm) (id : CarrierId) (s : State) : State :=
  if s.lapseDeferred id && !s.entryCommitted i id then s.lapse id else s

/-- A POSITION of a queued carrier, held on arm `i` (R30). -/
def State.takePosition (link i : Arm) (id : CarrierId) (distance speed : Nat) (s : State) : State :=
  let s := s.onRecord i id fun c => ({ c with distance := distance, speed := speed }).heard.wake
  ((s.clearanceDue link id).overrunCheck i id).retestDeferred i id

/-- A POSITION handled in RECOVERING or RUNNING (R30, R31). -/
def State.handlePosition (link : Arm) (id : CarrierId) (distance speed : Nat) (s : State) : State :=
  match s.queuedOn id with
  | some i => s.takePosition link i id distance speed
  | none =>
    if (s.crossingOf id).isSome || s.inUnmatched id then s.clearanceDue link id
    else s.refusalDue link id .unknown

/-- POSITION (R21, R30, R31); a speed above 400 is stored as 400 (R22). -/
def execPosition (link : Arm) (id : CarrierId) (distance speed : Half) (s : State) :
    Host.Outcome State Fault Refusal :=
  .next (s.event (State.onMessage link id
    (State.handlePosition link id distance.toNat (min 400 speed.toNat))))

/-! ## WITHDRAW -/

/-- A record is removed by WITHDRAW or PURGE CARRIER (R20, R32, R33). -/
def State.removeCarrier (i : Arm) (id : CarrierId) (s : State) : State :=
  ((s.withdrawGrant id).removeRecord i id).dropClearances id

/-- A WITHDRAW handled in RECOVERING or RUNNING (R32). -/
def State.handleWithdraw (link : Arm) (id : CarrierId) (s : State) : State :=
  match s.queuedOn id with
  | some i => s.removeCarrier i id
  | none =>
    if (s.crossingOf id).isSome || s.inUnmatched id then s.refusalDue link id .committed
    else s.refusalDue link id .unknown

/-- WITHDRAW (R21, R32). -/
def execWithdraw (link : Arm) (id : CarrierId) (s : State) : Host.Outcome State Fault Refusal :=
  .next (s.event (State.onMessage link id (State.handleWithdraw link id)))

/-! ## Sending -/

/-- The place of carrier `id` in a queue, counted from 1, with its record and its leader (R37, R42). `place` and `leader`
are those of the list's first record. -/
def placeOf (id : CarrierId) : Nat → Option Carrier → List Carrier → Option (Nat × Carrier × Option Carrier)
  | _, _, [] => none
  | place, leader, c :: rest => if c.id = id then some (place, c, leader) else placeOf id (place + 1) (some c) rest

/-- The CLEARANCE of a carrier as the part holds it now (R37); none when it is not held. -/
def State.buildClearance (s : State) (id : CarrierId) : Option LinkMessage :=
  match (s.queuedOn id).bind fun i => placeOf id 1 none (s.queue i) with
  | some (place, c, leader) =>
    let (auth, ceiling) := queuedClearance s.cfg c leader
    some (.clearance id (c.state == .granted) place auth ceiling)
  | none =>
    match (s.crossingOf id).bind fun i => (s.move i).bind fun m =>
        (m.carriers.find? fun e => e.id == id && e.isCrossing).map fun e => (i, m.exit, e.cls) with
    | some (i, j, cls) =>
      let (auth, ceiling) := crossingClearance s.cfg cls i j
      some (.clearance id true 0 auth ceiling)
    | none => if s.inUnmatched id then some (.clearance id false 0 0 0) else none

/-- The item at the front of a link's send list is taken, and a message goes out on the link, or nothing (R20, R37). -/
def State.takeItem (link : Arm) (rest : List SendItem) (m : Option LinkMessage) (s : State) : State :=
  { s with aqu := { s.aqu with
      sends := s.aqu.sends.set link rest
      linkTx := match m with
        | none => s.aqu.linkTx
        | some m => s.aqu.linkTx.set link (some m) } }

/-- SEND_CLEARANCE (R37): the item at the front is a CLEARANCE. -/
def execSendClearance (link : Arm) (s : State) : Host.Outcome State Fault Refusal :=
  .next (s.plainEvent fun s =>
    match s.aqu.sends.get link with
    | [] => s
    | .refusal _ _ :: _ => s
    | .clearance id :: rest => s.takeItem link rest (s.buildClearance id))

/-- SEND_REFUSAL (R20): the item at the front is a REFUSAL. -/
def execSendRefusal (link : Arm) (s : State) : Host.Outcome State Fault Refusal :=
  .next (s.plainEvent fun s =>
    match s.aqu.sends.get link with
    | [] => s
    | .clearance _ :: _ => s
    | .refusal id reason :: rest => s.takeItem link rest (some (.refusal id reason)))

/-! ## Silence -/

/-- A record falls silent (R34): the silent flag is set, and WAITING and LAPSED become MUTE. The silence time has reached
the carrier silence time `ms`. -/
def Carrier.fallSilent (ms : Nat) (c : Carrier) : Carrier :=
  { c with
    silence := max c.silence ms
    silent := true
    state := if c.state = .granted then .granted else .mute }

/-- CARRIER_MUTE (R34): for a record whose silent flag is clear. -/
def execCarrierMute (id : CarrierId) (s : State) : Host.Outcome State Fault Refusal :=
  .next (s.event fun s =>
    match s.queuedOn id with
    | none => s
    | some i =>
      match s.recordOn i id with
      | none => s
      | some c =>
        if c.silent then s
        else (s.onRecord i id (Carrier.fallSilent s.cfg.carrierSilence)).raise .carrierMute)

/-! ## Discarded messages -/

/-- ARM_LINK_BYTE_GAP (R19): the message in progress is discarded. -/
def execArmLinkByteGap (link : Arm) (s : State) : Host.Outcome State Fault Refusal :=
  .next (s.plainEvent (State.huntLink link))

/-- ARM_LINK_MESSAGE_DISCARD (R19, R1): no answer, no change of any record, no event. -/
def execArmLinkMessageDiscard (link : Arm) (s : State) : Host.Outcome State Fault Refusal :=
  .next (s.plainEvent (State.huntLink link))

end Sys2Proof.Machine
end

