-- ==== Sys2Proof/Machine/Junction.lean ====
section
/-! DEFINITION. The meanings of the junction's own events: the arbitration round (chapter 5), detectors, start windows and
clear timers (chapter 4), the hold's settle timer (chapter 10). -/

namespace Sys2Proof.Machine

/-- ARBITRATION_ROUND (R76): taken while round due is yes, RUNNING, not held. -/
def execArbitrationRound (s : State) : Host.Outcome State Fault Refusal :=
  .next (s.event fun s => if s.jar.due && s.granting then s.round else s)

/-! ## Entries -/

/-- The entry becomes CROSSING, with the load class of the carrier record (R56, R63). -/
def Entry.enter (cls : Option (Fin 4)) (e : Entry) : Entry :=
  { e with cls := cls.getD e.cls, status := .crossing (.running 0) false }

/-- An entry activation on arm `i` matched to the GRANTED entry of carrier `id` in the record `m` (R63), with the
follow-on test it makes JAR take (R86). -/
def State.matchedEntry (i : Arm) (m : Movement) (id : CarrierId) (s : State) : State :=
  let cls := (s.recordOn i id).map Carrier.cls
  let s := s.setMove i (some { m with carriers := mapFirst (fun e => e.status.isGranted) (Entry.enter cls) m.carriers })
  let s := (s.removeRecord i id).countX i
  if s.granting then s.followOnTest i else s

/-- An unauthorised entry is raised, and handed to HLD in RUNNING (R64, R72). -/
def State.unauthorisedEntry (s : State) : State :=
  let s := s.raise .unauthorisedEntry
  if s.part == .running then s.addCause .unauthorised else s

/-- An entry activation on arm `i` that matches no grant (R64). -/
def State.unmatchedEntry (i : Arm) (s : State) : State :=
  let head := s.head i
  let s := s.onQueue i List.tail
  let s := s.addUnmatched
    { id := (head.map Carrier.id).getD 0, arrival := some i, exit := head.map Carrier.exit, source := .entry }
  (s.countX i).unauthorisedEntry

/-- The oldest GRANTED entry of the movement record with entry arm `i` (R63). -/
def State.oldestGranted (s : State) (i : Arm) : Option (Movement × CarrierId) :=
  (s.move i).bind fun m => (m.carriers.find? fun e => e.status.isGranted).map fun e => (m, e.id)

/-- An entry activation on arm `i` (R60, R63, R64). -/
def State.entryActivation (i : Arm) (s : State) : State :=
  if s.part == .running || s.part == .faulted then
    match s.oldestGranted i with
    | some (m, id) => s.matchedEntry i m id
    | none => s.unmatchedEntry i
  else s.unmatchedEntry i

/-- A box activation (R72). -/
def State.boxActivation (s : State) : State :=
  if s.xu.cells.toList.all fun c => c == .free then
    (s.addUnmatched { id := 0, arrival := none, exit := none, source := .box }).unauthorisedEntry
  else s

/-! ## Filters -/

/-- The raw level of an input is told (R61): where it differs from the filtered level the debounce time starts at the
change, and where it has returned to the filtered level the debounce time stops. -/
def Debounce.sense (raw : Bool) (d : Debounce) : Debounce :=
  if raw = d.raw then d else { d with raw := raw, timer := if raw = d.level then .stopped else .running 0 }

/-- The filtered level changes: the raw level has differed from it for the debounce time (R61). -/
def Debounce.flip (d : Debounce) : Debounce := { level := !d.level, raw := !d.level, timer := .stopped }

/-- The filtered level changes; the stuck timer starts or stops, and the stuck flag is cleared when the level becomes
inactive (R61, R62). -/
def Filter.change (f : Filter) : Filter :=
  if f.level then { input := f.input.flip, stuckTimer := .stopped, stuck := false }
  else { f with input := f.input.flip, stuckTimer := .running 0 }

/-- The filter of an input runs (R60, R144): in the part states in which filters run, for a detector of a present arm, for
BOX when it is fitted, and for the button. -/
def State.runsFilter (s : State) (input : Input) : Bool :=
  s.part.working && match input with
    | .ent i => s.present i
    | .ext j => s.present j
    | .box => s.cfg.boxFitted
    | .button => true

/-- The debouncing of an input. -/
def State.debounce (s : State) : Input → Debounce
  | .ent i => (s.xu.ent.get i).input
  | .ext j => (s.xu.ext.get j).input
  | .box => s.xu.box.input
  | .button => s.wkp.button

/-- The raw level of an input's filter is told. -/
def Filter.sense (raw : Bool) (f : Filter) : Filter := { f with input := f.input.sense raw }

/-- The raw level of an input is told at the moment it changes (R61, R144). It is no event of the part; where no filter
runs it is ignored (R60). -/
def State.senseInput (input : Input) (raw : Bool) (s : State) : State :=
  if s.runsFilter input then
    match input with
    | .ent i => { s with xu := { s.xu with ent := s.xu.ent.set i ((s.xu.ent.get i).sense raw) } }
    | .ext j => { s with xu := { s.xu with ext := s.xu.ext.set j ((s.xu.ext.get j).sense raw) } }
    | .box => { s with xu := { s.xu with box := s.xu.box.sense raw } }
    | .button => s.modWkp fun w => { w with button := w.button.sense raw }
  else s

/-- A change of a detector's or the box sensor's filtered level is a detector event: it restarts the crossing quiet timer
(R61, R171). -/
def State.detectorEvent (s : State) : State :=
  if s.scu.crossingQuiet.isRunning then s.modScu fun u => { u with crossingQuiet := .running 0 } else s

/-- An entry detector's filtered level changes (R61). -/
def State.changeEnt (i : Arm) (s : State) : State :=
  let active := !(s.xu.ent.get i).level
  let s := ({ s with xu := { s.xu with ent := s.xu.ent.set i (s.xu.ent.get i).change } }).detectorEvent
  if active then s.entryActivation i else s

/-- An exit detector's filtered level changes (R61). -/
def State.changeExt (j : Arm) (s : State) : State :=
  let active := !(s.xu.ext.get j).level
  let s := ({ s with xu := { s.xu with ext := s.xu.ext.set j (s.xu.ext.get j).change } }).detectorEvent
  if active then s else s.exitRelease j

/-- The box sensor's filtered level changes (R61, R72). -/
def State.changeBox (s : State) : State :=
  let active := !s.xu.box.level
  let s := ({ s with xu := { s.xu with box := s.xu.box.change } }).detectorEvent
  if active then s.boxActivation else s

/-- The button's filtered level changes (R144). -/
def State.changeButton (s : State) : State :=
  let pressed := !s.wkp.button.level
  let s := s.modWkp fun w => { w with button := w.button.flip }
  if pressed then s.pressButton else s

/-- DETECTOR_FILTER_CHANGE (R60, R61, R144): the filtered level of an input whose filter runs changes. -/
def execDetectorFilterChange (input : Input) (s : State) : Host.Outcome State Fault Refusal :=
  .next (s.event fun s =>
    if s.runsFilter input then
      match input with
      | .ent i => s.changeEnt i
      | .ext j => s.changeExt j
      | .box => s.changeBox
      | .button => s.changeButton
    else s)

/-! ## Closing an arm at runtime -/

/-- A closure cause set changes by `f`; when it becomes non-empty, an overdue designation that arrives on the arm or leaves
by it ends (R3, R85). -/
def State.close (i : Arm) (f : Closure → Closure) (s : State) : State :=
  let before := s.closed i
  let s := { s with closures := s.closures.set i (f (s.closures.get i)) }
  match s.jar.overdue with
  | none => s
  | some o => if !before && (o.arrival == i || o.exit == i) then s.endOverdue else s

/-- A filter's stuck timer has reached the stuck time (R62). -/
def Filter.fail (f : Filter) : Filter := { f with stuckTimer := .expired, stuck := true }

/-- DETECTOR is added to an arm's closure cause set and DETECTOR_FAULT is raised (R4, R62). -/
def State.closeForDetector (i : Arm) (s : State) : State :=
  (s.raise .detectorFault).close i fun c => { c with detector := true }

/-- DETECTOR_FAULT (R62): while the input's stuck timer runs. The button has no stuck supervision (R144). -/
def execDetectorFault (input : Input) (s : State) : Host.Outcome State Fault Refusal :=
  .next (s.event fun s =>
    match input with
    | .ent i =>
      if (s.xu.ent.get i).stuckTimer.isRunning then
        ({ s with xu := { s.xu with ent := s.xu.ent.set i (s.xu.ent.get i).fail } }).closeForDetector i
      else s
    | .ext j =>
      if (s.xu.ext.get j).stuckTimer.isRunning then
        ({ s with xu := { s.xu with ext := s.xu.ext.set j (s.xu.ext.get j).fail } }).closeForDetector j
      else s
    | .box =>
      if s.xu.box.stuckTimer.isRunning then
        ({ s with xu := { s.xu with box := s.xu.box.fail } }).raise .detectorFault
      else s
    | .button => s)

/-! ## Start window and clear timer -/

/-- The start timer of carrier `id`'s GRANTED entry is running. -/
def Entry.inStartWindow (id : CarrierId) (e : Entry) : Bool :=
  e.id == id && match e.status with
    | .granted start _ => start.isRunning
    | .crossing _ _ => false

/-- The start timer has expired and the lapse is deferred (R69). -/
def Entry.deferLapse (id : CarrierId) (e : Entry) : Entry :=
  if e.grantedTo id then { e with status := .granted .expired true } else e

/-- START_WINDOW_EXPIRY (R68, R69): while the start timer of the carrier's GRANTED entry runs. -/
def execStartWindowExpiry (id : CarrierId) (s : State) : Host.Outcome State Fault Refusal :=
  .next (s.event fun s =>
    match s.grantOf id with
    | none => s
    | some i =>
      match s.move i with
      | none => s
      | some m =>
        if m.carriers.any (Entry.inStartWindow id) then
          (if s.entryCommitted i id then s.mapEntries i (Entry.deferLapse id) else s.lapse id)
        else s)

/-- The clear timer of carrier `id`'s CROSSING entry is running. -/
def Entry.inClearTime (id : CarrierId) (e : Entry) : Bool :=
  e.id == id && match e.status with
    | .granted _ _ => false
    | .crossing clear _ => clear.isRunning

/-- The clear timer has expired and the entry is stalled (R71). -/
def Entry.stall (id : CarrierId) (e : Entry) : Entry :=
  if e.inClearTime id then { e with status := .crossing .expired true } else e

/-- CROSSING_STALL (R71): while the clear timer of the carrier's CROSSING entry runs. -/
def execCrossingStall (id : CarrierId) (s : State) : Host.Outcome State Fault Refusal :=
  .next (s.event fun s =>
    match s.crossingOf id with
    | none => s
    | some i =>
      match s.move i with
      | none => s
      | some m =>
        if m.carriers.any (Entry.inClearTime id) then
          (s.mapEntries i (Entry.stall id)).raise .crossingStall
        else s)

/-! ## Settle timer -/

/-- SETTLE_TIMER_EXPIRY (R158, R159): while the settle timer runs. -/
def execSettleTimerExpiry (s : State) : Host.Outcome State Fault Refusal :=
  .next (s.event fun s =>
    if s.hld.settle.isRunning then
      let s := s.modHld fun h => { h with overrun := false, unauthorised := false, settle := .stopped }
      if s.held then s else s.releaseHold
    else s)

end Sys2Proof.Machine
end

