-- ==== Sys2Proof/Machine/Tables.lean ====
section
/-! DEFINITION. The data of the maintenance port's reads (R181 to R183), each item in the order in which its rule names it,
coded as R187 says: an enumerated value by its place in its rule's list unless chapter 13 codes it, a value of none or
unknown as the highest value of its item, a list behind its count, a set as one bit per member. -/

namespace Sys2Proof.Machine

open Layout

/-! ## Codes -/

def partCode : PartState → Nat
  | .loading => 0
  | .unconfigured => 1
  | .settling => 2
  | .listening => 3
  | .recovering => 4
  | .running => 5
  | .faulted => 6

def causeCode : RestartCause → Nat
  | .powerOn => 0
  | .resetPin => 1
  | .command => 2

/-- The load outcome: none is 0xFF; the others by their place in the list of R182, whose first is none (log 16). -/
def loadCode : LoadOutcome → Nat
  | .none => 0xFF
  | .loaded => 1
  | .refused => 2
  | .bypassed => 3

/-- A timer as R187 codes it. -/
def timerByte : Timer → Byte
  | .stopped => 0
  | .running _ => 1
  | .expired => 2

def carrierStateCode : CarrierState → Nat
  | .waiting => 0
  | .granted => 1
  | .lapsed => 2
  | .mute => 3

/-- A value in one byte, or none. -/
def orNone (v : Option Nat) : Byte := byte (v.getD 0xFF)

/-- An arm's number, or none. -/
def armOrNone (v : Option Arm) : Byte := orNone (v.map Fin.val)

/-- A carrier ID in two bytes. -/
def idBytes (id : CarrierId) : List Byte := two id.toNat

/-- A list behind its count (R187). -/
def listed (entries : List (List Byte)) : List Byte := byte entries.length :: entries.flatten

/-- The absent marker (R187). -/
def absentMarker : List Byte := [0xFF]

/-- An event set in three bytes (R187). -/
def eventBytes (set : BitVec 18) : List Byte := [byte set.toNat, byte (set.toNat / 256), byte (set.toNat / 65536)]

/-! ## READ STATUS and READ EVENTS -/

/-- The hold-cause set (R151). -/
def holdSetByte (h : Hld) : Byte := byte (bits [h.overrun, h.unauthorised, h.operator])

/-- READ STATUS (R182). -/
def State.statusData (s : State) : List Byte :=
  [byte (partCode s.part), byte (causeCode s.scu.cause), byte (loadCode s.scu.load), byte s.scu.stages, s.scu.epoch,
    byte s.cfg.nodeAddress, holdSetByte s.hld, timerByte s.hld.settle, orNone s.firstPending]

/-- READ EVENTS (R181): every flag and then every mask bit, each as an event set of three bytes (log 42). -/
def State.eventData (s : State) : List Byte := eventBytes s.mtp.flags ++ eventBytes s.mtp.mask

/-! ## READ QUEUE -/

/-- A carrier record (R22). -/
def recordBytes (c : Carrier) : List Byte :=
  idBytes c.id ++ [byte c.arrival.val, byte c.cls.val, flag c.priority, byte c.exit.val] ++ two c.length ++ two c.distance
  ++ two c.speed ++ two c.silence ++ [byte (carrierStateCode c.state), flag c.silent, byte c.skip, flag c.overdue]

/-- READ QUEUE (R183). -/
def State.queueData (i : Arm) (s : State) : List Byte :=
  if s.present i then
    [byte (s.queueCapacity i), byte (s.demand i)] ++ listed ((s.queue i).map recordBytes)
  else absentMarker

/-! ## READ CROSSING -/

/-- A cell record (R51): its state, its holder, its reserved-for carrier. UNKNOWN is coded by its place in the list of R51,
as a state and no value unknown (log 33). -/
def cellBytes : Cell → List Byte
  | .free => [0, 0xFF, 0xFF, 0xFF]
  | .held h => [1, byte h.val, 0xFF, 0xFF]
  | .reserved c => [2, 0xFF] ++ idBytes c
  | .emergency => [3, 0xFF, 0xFF, 0xFF]
  | .unknown => [4, 0xFF, 0xFF, 0xFF]

/-- A cell set as one bit per cell. -/
def cellSetByte (set : List Arm) : Byte := byte (bits (Arm.list.map fun k => set.contains k))

/-- An entry of a carrier list (R56): ID, status, class, deferred or stalled flag, timer state. -/
def entryData (e : Entry) : List Byte :=
  idBytes e.id ++ (match e.status with
    | .granted start deferred => [0, byte e.cls.val, flag deferred, timerByte start]
    | .crossing clear stalled => [1, byte e.cls.val, flag stalled, timerByte clear])

/-- A movement record (R55). -/
def movementBytes (i : Arm) (m : Movement) : List Byte :=
  [byte i.val, byte m.exit.val, cellSetByte (cellSet i m.exit)] ++ listed (m.carriers.map entryData)
  ++ [byte m.followOns, flag m.rescued]

/-- The movement records, in the order of their entry arms (log 19). -/
def State.moveBytes (s : State) : List (List Byte) :=
  Arm.list.filterMap fun i => (s.move i).map (movementBytes i)

/-- An entry of the unmatched list (R65). An ID not known is sent as the 0 that R65 holds for it (log 36). -/
def unmatchedBytes (u : Unmatched) : List Byte :=
  idBytes u.id ++ [armOrNone u.arrival, armOrNone u.exit, (match u.source with
    | .entry => 0
    | .box => 1)]

/-- A filter's level, coded 1 when active and 0 when inactive (log 43), and its stuck flag. -/
def filterBytes (f : Filter) : List Byte := [flag f.level, flag f.stuck]

/-- A closure cause set (R3). -/
def closureByte (c : Closure) : Byte := byte (bits [c.operator, c.detector])

/-- The switches (R74): S1 and S2 by their places, S3 and S4 as the numbers of the arms they point to (log 32). -/
def switchBytes (j : Jar) : List Byte :=
  [(match j.s1 with
    | .priority => 0
    | .normal => 1),
   (match j.s2 with
    | .arms01 => 0
    | .arms23 => 1),
   (match j.s3 with
    | .lower => 0
    | .upper => 1),
   (match j.s4 with
    | .lower => 2
    | .upper => 3)]

/-- The overdue designation (R74): each item none when it is absent (log 16). -/
def overdueBytes : Option Overdue → List Byte
  | none => [0xFF, 0xFF, 0xFF, 0xFF, 0xFF]
  | some o => idBytes o.id ++ [byte o.arrival.val, byte o.exit.val, cellSetByte (cellSet o.arrival o.exit)]

def walkStateCode : WalkState → Nat
  | .closed => 0
  | .closing => 1
  | .opened => 2

/-- The walkway (R140). -/
def walkwayBytes (w : Wkp) : List Byte :=
  [byte (walkStateCode w.state), flag w.request] ++ two w.stagedP ++ [byte w.stagedW] ++ two w.latchedP
  ++ [byte w.latchedW, timerByte w.interval, timerByte w.clearance, timerByte w.opening]

/-- READ CROSSING (R183). The detectors and the closure cause set of an absent arm stand in it at their restart values, with
no marker (log 37). -/
def State.crossingData (s : State) : List Byte :=
  s.xu.cells.toList.flatMap cellBytes ++ listed s.moveBytes ++ listed (s.xu.unmatched.map unmatchedBytes)
  ++ s.xu.ent.toList.flatMap filterBytes ++ s.xu.ext.toList.flatMap filterBytes ++ filterBytes s.xu.box
  ++ s.closures.toList.map closureByte ++ switchBytes s.jar ++ overdueBytes s.jar.overdue ++ walkwayBytes s.wkp

/-! ## READ SEGMENT -/

/-- A role as READ SEGMENT gives it: LOCK and FAR as R186 codes them, and SPUR, which chapter 13 does not code, by its place
in the list of R90 (R187). FAR and SPUR so have one code (log 31). -/
def roleByte : Role → Byte
  | .lock => 1
  | .far => 2
  | .spur => 2

/-- The direction shown: a fixed direction is shown from LISTENING on (log 15). -/
def State.shownDirection (s : State) (i : Arm) : Direction := if s.part.working then (s.seg i).dir else .free

/-- READ SEGMENT (R183): the fields of R90 in order, then the condition and the effective capacity. The validity of the held
limit is coded as a flag, 1 when valid (log 34), and the last direction as R186 codes a direction (log 40). -/
def State.segmentData (i : Arm) (s : State) : List Byte :=
  if s.present i then
    let g := s.seg i
    [roleByte (s.role i), g.e, g.x, byte g.r, byte g.occ, flag g.unsure, flag g.isolated, g.eN, g.xN, byte g.rN,
      byte g.demN, byte g.occN, orNone g.capN, orNone (g.condN.map conditionCode), orNone (g.dirN.map directionCode),
      g.limN, g.limEpN, byte (directionCode (s.shownDirection i)),
      (match g.last with
        | .outbound => 1
        | .inbound => 2),
      g.limit, g.limitEpoch, timerByte g.hold, timerByte g.quiet, g.heldLimit, g.heldEpoch, flag (s.heldValid i),
      byte (conditionCode g.condition), byte (s.effCapacity i)]
  else absentMarker

/-! ## READ NEIGHBOUR -/

def neighbourStateCode : NeighbourState → Nat
  | .awaited => 0
  | .live => 1
  | .silent => 2

/-- A base state, by its place in the list of R129: NONE is a state of the record and no absent value (log 33). -/
def baseCode : BaseState → Nat
  | .none => 0
  | .current => 1
  | .newEpoch => 2

/-- A mismatch: none is 0xFF; the others by their place in the list of R129, whose first is none (log 16). -/
def mismatchCode : Mismatch → Nat
  | .none => 0xFF
  | .noEntry => 1
  | .kind => 2

/-- The node state of a report (R186). -/
def reportedStateCode : NodeState → Nat
  | .recovering => 1
  | .running => 2
  | .faulted => 3

/-- The copy of last entry; none is twelve bytes of 0xFF (R187). -/
def copyBytes : Option RawEntry → List Byte
  | none => List.replicate 12 0xFF
  | some e => entryBytes e

/-- READ NEIGHBOUR (R183). The last node state and the hold flag are two items of one byte each, both 0xFF when none was
heard (log 35). -/
def State.neighbourData (i : Arm) (s : State) : List Byte :=
  if s.present i then
    (if (s.arm i).neighbour = 0 then [Config.spurMarker]
    else
      let n := s.nbr i
      [byte (s.arm i).neighbour, byte (neighbourStateCode n.state), n.epoch.getD 0, byte (baseCode n.base)]
      ++ two n.silence
      ++ [flag n.late, byte (mismatchCode n.mismatch), flag n.capFlag,
        orNone (n.node.map fun p => reportedStateCode p.1), orNone (n.node.map fun p => if p.2 then 1 else 0)]
      ++ copyBytes n.entry)
  else absentMarker

/-! ## READ CONFIG -/

/-- READ CONFIG (R183, R188). -/
def State.configData (s : State) : List Byte := Image.bytes s.cfg

end Sys2Proof.Machine
end

