-- ==== Sys2Proof/Machine/Port.lean ====
section
/-! DEFINITION. The maintenance port (chapter 12): the command and response buffer (R177), the order in which a command is
judged (R178), and the meanings of the port's commands. -/

namespace Sys2Proof.Machine

open Layout

/-! ## The buffer -/

/-- The response stream that SDO carries, by the buffer's state (R177). -/
def Buffer.stream : Buffer → Response
  | .empty => .none
  | .busy _ => .notReady
  | .ready r => r

/-- The bytes of a response frame (R187). -/
def Response.bytes : Response → List Byte
  | .none => withCrc16 [0, 0, 0, 0, 0]
  | .notReady => withCrc16 [1, 0, 0, 0, 0]
  | .ok code => withCrc16 [2, code, 0, 0, 0]
  | .refused code reason => withCrc16 [3, code, (match reason with
      | .wrongState => 1
      | .notClear => 2
      | .notLockEnd => 3
      | .badArgument => 4), 0, 0]
  | .data code content => withCrc16 ([4, code, 0] ++ two content.length ++ content)

/-- The port's state under `f`. -/
def State.modMtp (f : Mtp → Mtp) (s : State) : State := { s with mtp := f s.mtp }

/-- The stream that SDO carried in the transaction whose row is taken: the one its beginning set, or for a row given without
its bits, the one of the buffer as it stands (R177, log 30). -/
def Mtp.stream (p : Mtp) : Response := p.carried.headD p.buffer.stream

/-- The row of a transaction is taken: it leaves the buffer as `f` gives it from the stream carried (R176, R177). -/
def State.endTransaction (f : Response → Buffer → Buffer) (s : State) : State :=
  s.modMtp fun p => { p with sdo := p.stream, carried := p.carried.tail, buffer := f p.stream p.buffer }

/-- The end of a command's transaction: the buffer is BUSY with the command's response, whatever it held (R176, R177). -/
def State.answer (r : Response) (s : State) : State := s.endTransaction fun _ _ => .busy r

/-- RESPONSE_READY (R177): the buffer passes from BUSY to READY. -/
def execResponseReady (s : State) : Host.Outcome State Fault Refusal :=
  .next (s.plainEvent fun s => s.modMtp fun p =>
    { p with buffer := match p.buffer with
        | .empty => .empty
        | .busy r => .ready r
        | .ready r => .ready r })

/-- The buffer after a transaction that clocked `n` bytes of a stream and carried no command (R177): a stored response is
read when it was the stream and every byte of it was clocked, and is kept whole otherwise. -/
def Buffer.afterRead (n : Nat) (stream : Response) : Buffer → Buffer
  | .empty => .empty
  | .busy r => .busy r
  | .ready r => if stream = r ∧ (Response.bytes r).length ≤ n then .empty else .ready r

/-- IDLE_FRAME (R176, R177): a transaction whose bits are no multiple of 8 is discarded. -/
def execIdleFrame (bits : Nat) (s : State) : Host.Outcome State Fault Refusal :=
  .next (s.plainEvent (State.endTransaction fun stream b =>
    if bits % 8 = 0 then b.afterRead (bits / 8) stream else b))

/-- BAD_COMMAND_FRAME (R177): refused with BAD_ARGUMENT; the frame has no other effect. -/
def execBadCommandFrame (code : Byte) (s : State) : Host.Outcome State Fault Refusal :=
  .next (s.plainEvent (State.answer (.refused code .badArgument)))

/-! ## Judging a command -/

/-- The result of a command at its owner: its effect, with the response OK, or a refusal and its effect (R178). -/
inductive Verdict where
  | ok (s : State)
  | refused (reason : Reason) (s : State)
deriving DecidableEq, Repr

/-- The state with the verdict's response in the buffer. -/
def Verdict.settle (code : Byte) : Verdict → State
  | .ok s => s.answer (.ok code)
  | .refused reason s => s.answer (.refused code reason)

/-- A command that is accepted in the part states LISTENING to FAULTED (R178, step 1). -/
def State.act (code : Byte) (owner : State → Verdict) (s : State) : State :=
  Verdict.settle code (if s.part.acting then owner s else .refused .wrongState s)

/-- An arm byte in its coded range (R178, step 2). -/
def armOf (b : Byte) : Option Arm := if h : b.toNat < 4 then some ⟨b.toNat, h⟩ else none

/-- An acting command that names an arm (R178). An absent arm is refused with BAD_ARGUMENT (R3, R5, R109). -/
def State.onArm (b : Byte) (owner : Arm → State → Verdict) (s : State) : Verdict :=
  match armOf b with
  | none => .refused .badArgument s
  | some i => if s.present i then owner i s else .refused .badArgument s

/-- A read's answer (R179, R183). -/
def State.answerData (code : Byte) (content : List Byte) (s : State) : State := s.answer (.data code content)

/-- A table read that names an arm (R178, R183). -/
def State.readArm (code b : Byte) (content : Arm → State → List Byte) (s : State) : State :=
  match armOf b with
  | none => s.answer (.refused code .badArgument)
  | some i => s.answerData code (content i s)

/-! ## Reads -/

/-- READ_STATUS (R182). -/
def execReadStatus (s : State) : Host.Outcome State Fault Refusal :=
  .next (s.plainEvent fun s => s.answerData 0x01 s.statusData)

/-- READ_EVENTS (R181). -/
def execReadEvents (s : State) : Host.Outcome State Fault Refusal :=
  .next (s.plainEvent fun s => s.answerData 0x02 s.eventData)

/-- READ_QUEUE (R183). -/
def execReadQueue (arm : Byte) (s : State) : Host.Outcome State Fault Refusal :=
  .next (s.plainEvent (State.readArm 0x05 arm State.queueData))

/-- READ_CROSSING (R183). -/
def execReadCrossing (s : State) : Host.Outcome State Fault Refusal :=
  .next (s.plainEvent fun s => s.answerData 0x06 s.crossingData)

/-- READ_SEGMENT (R183). -/
def execReadSegment (arm : Byte) (s : State) : Host.Outcome State Fault Refusal :=
  .next (s.plainEvent (State.readArm 0x07 arm State.segmentData))

/-- READ_NEIGHBOUR (R183). -/
def execReadNeighbour (arm : Byte) (s : State) : Host.Outcome State Fault Refusal :=
  .next (s.plainEvent (State.readArm 0x08 arm State.neighbourData))

/-- READ_CONFIG (R183). -/
def execReadConfig (s : State) : Host.Outcome State Fault Refusal :=
  .next (s.plainEvent fun s => s.answerData 0x09 s.configData)

/-! ## Event flags and mask -/

/-- ACKNOWLEDGE_EVENTS (R181): each named flag is cleared. -/
def execAcknowledgeEvents (kinds : BitVec 24) (s : State) : Host.Outcome State Fault Refusal :=
  .next (s.plainEvent fun s =>
    if eventSetInRange kinds then
      (s.modMtp fun p => { p with flags := p.flags &&& ~~~(kinds.setWidth 18) }).answer (.ok 0x03)
    else s.answer (.refused 0x03 .badArgument))

/-- SET_MASK (R181): the whole mask takes the given values. -/
def execSetMask (enables : BitVec 24) (s : State) : Host.Outcome State Fault Refusal :=
  .next (s.plainEvent fun s =>
    if eventSetInRange enables then
      (s.modMtp fun p => { p with mask := enables.setWidth 18 }).answer (.ok 0x04)
    else s.answer (.refused 0x04 .badArgument))

/-! ## Arms -/

/-- CLOSE_ARM (R3). -/
def execCloseArm (arm : Byte) (s : State) : Host.Outcome State Fault Refusal :=
  .next (s.event (State.act 0x10 (State.onArm arm fun i s =>
    .ok (s.close i fun c => { c with operator := true }))))

/-- The filtered level of the entry or the exit detector of an arm is active (R5). -/
def State.detectorActive (s : State) (i : Arm) : Bool := (s.xu.ent.get i).level || (s.xu.ext.get i).level

/-- OPEN ARM for a present arm (R5). -/
def State.openArm (i : Arm) (s : State) : Verdict :=
  if (s.closures.get i).detector && s.detectorActive i then .refused .notClear s
  else if s.closed i then
    .ok ({ s with closures := s.closures.set i ⟨false, false⟩ } : State).trigger
  else .ok s

/-- OPEN_ARM (R5). -/
def execOpenArm (arm : Byte) (s : State) : Host.Outcome State Fault Refusal :=
  .next (s.event (State.act 0x11 (State.onArm arm State.openArm)))

/-! ## Hold -/

/-- STOP (R160). -/
def execStop (s : State) : Host.Outcome State Fault Refusal :=
  .next (s.event (State.act 0x12 fun s => .ok (s.addCause .operator)))

/-- RELEASE at its owner (R159, R160): OPERATOR is removed; other causes refuse. -/
def State.operatorRelease (s : State) : Verdict :=
  let t := s.modHld fun h => { h with operator := false }
  if s.heldForCarrier then .refused .notClear t
  else if s.hld.operator then .ok t.releaseHold
  else .ok s

/-- RELEASE (R160). -/
def execRelease (s : State) : Host.Outcome State Fault Refusal :=
  .next (s.event (State.act 0x13 State.operatorRelease))

/-! ## CONFIRM CLEAR -/

/-- CONFIRM CLEAR for the crossing (R65, R145, R172). -/
def State.confirmCrossing (s : State) : State :=
  let s := (s.setUnmatched []).openTest
  if s.part == .recovering then s.resolveCrossing else s

/-- CONFIRM_CLEAR_CROSSING (R172). -/
def execConfirmClearCrossing (s : State) : Host.Outcome State Fault Refusal :=
  .next (s.event (State.act 0x14 fun s => .ok s.confirmCrossing))

/-- A movement record has arm `j` as its exit arm (R109). -/
def State.exitInUse (s : State) (j : Arm) : Bool :=
  Arm.list.any fun i => match s.move i with
    | none => false
    | some m => m.exit == j

/-- CONFIRM CLEAR for a present arm (R109). -/
def State.confirmClear (i : Arm) (s : State) : Verdict :=
  if s.role i = .far then .refused .notLockEnd s
  else if s.exitInUse i then .refused .notClear s
  else .ok (s.confirmArm i)

/-- CONFIRM_CLEAR_ARM (R109); a target that names no arm is out of its coded range (R178, R187). -/
def execConfirmClearArm (target : Byte) (s : State) : Host.Outcome State Fault Refusal :=
  .next (s.event (State.act 0x14 (State.onArm target State.confirmClear)))

/-! ## Carriers, walkway, configuration, restart -/

/-- PURGE CARRIER at its owner (R33); an ID of 0 or above 4095 is out of its coded range (R178). -/
def State.purge (id : Half) (s : State) : Verdict :=
  if id.toNat = 0 ∨ 4095 < id.toNat then .refused .badArgument s
  else match s.queuedOn (id.setWidth 12) with
    | none => .refused .badArgument s
    | some i => .ok (s.removeCarrier i (id.setWidth 12))

/-- PURGE_CARRIER (R33). -/
def execPurgeCarrier (id : Half) (s : State) : Host.Outcome State Fault Refusal :=
  .next (s.event (State.act 0x15 (State.purge id)))

/-- SET WALKWAY at its owner (R141). -/
def State.stageWalkway (p w : Nat) (s : State) : Verdict :=
  if 10 ≤ p ∧ p ≤ 600 ∧ w ≤ 120 then
    .ok (s.modWkp fun k => { k with stagedP := p, stagedW := w })
  else .refused .badArgument s

/-- SET_WALKWAY (R141). -/
def execSetWalkway (p : Half) (w : Byte) (s : State) : Host.Outcome State Fault Refusal :=
  .next (s.event (State.act 0x16 (State.stageWalkway p.toNat w.toNat)))

/-- WRITE CONFIG (R166, R178): an image of another length fails the frame checks; it is accepted in UNCONFIGURED, while no
write is in progress. -/
def State.beginWrite (image : List Byte) (s : State) : Verdict :=
  if image.length ≠ Image.size then .refused .badArgument s
  else if s.part == .unconfigured && s.scu.writing.isNone then
    .ok (s.modScu fun u => { u with writing := some image })
  else .refused .wrongState s

/-- WRITE_CONFIG (R166). -/
def execWriteConfig (image : List Byte) (s : State) : Host.Outcome State Fault Refusal :=
  .next (s.plainEvent fun s => (s.beginWrite image).settle 0x20)

/-- RESTART (R163, R178): the restart follows in the same event, and its response is lost with the buffer. -/
def execRestart (s : State) : Host.Outcome State Fault Refusal :=
  .next (s.plainEvent (State.restart .command))

end Sys2Proof.Machine
end

