-- ==== Sys2Proof/Machine/FrontEnd.lean ====
section
/-! DEFINITION. How raw traffic becomes commands (log 7): the characters of an arm link and the layout of its messages
(R18, R19, R184, R185), the bits of the floor line (R113, R114, R125), and the bits and bytes of a maintenance transaction
(R176, R177, R184, R187). The step does not call these: they tell the sender of commands which command a run of bits is, and
what the part puts on ALiTX and SDO. -/

namespace Sys2Proof.Machine

open Layout

/-- A command joins the queue at its end. -/
def State.enqueue (c : Instr) (s : State) : State := { s with pending := s.pending ++ [c] }

/-! ## Arm links -/

/-- The sync byte (R185). -/
def syncByte : Byte := 0xC3

/-- The code of a refusal reason (R185). -/
def refusalCode : RefusalReason → Byte
  | .armClosed => 1
  | .noRoute => 2
  | .duplicate => 3
  | .armFull => 4
  | .unknown => 5
  | .notReady => 6
  | .committed => 7
  | .badField => 8

/-- A message behind its sync byte, with its CRC (R184, R185); `body` runs from the kind byte. -/
def sealMessage (body : List Byte) : List Byte := syncByte :: body ++ [crc8 body]

/-- The bytes of a message the part sends (R185). -/
def LinkMessage.bytes : LinkMessage → List Byte
  | .clearance id go place auth ceiling =>
    sealMessage ([0x21, 11] ++ idBytes id ++ [byte ((if go then 1 else 0) + 16 * place)] ++ two auth ++ two ceiling)
  | .refusal id reason => sealMessage ([0x22, 7] ++ idBytes id ++ [refusalCode reason])

/-- The length of a carrier message by its kind byte (R185). -/
def linkLength (kind : Byte) : Option Nat :=
  if kind = 0x11 then some 13 else if kind = 0x12 then some 10 else if kind = 0x13 then some 6 else none

/-- A two-byte field of a message. -/
def halfAt (l : List Byte) (k : Nat) : Half := BitVec.ofNat 16 (twoAt l k)

/-- The carrier ID at offset 3: the low 12 bits of the field (R185). -/
def idOf (l : List Byte) : CarrierId := BitVec.ofNat 12 (twoAt l 3)

/-- A number from 0 to 3. -/
def quarter (n : Nat) : Fin 4 := Fin.ofNat 4 n

/-- A complete message that has passed the checks, by its kind (R185). -/
def messageCommand (link : Arm) (l : List Byte) : Instr :=
  if byteAt l 1 = 0x11 then
    .announce link (idOf l) (quarter (byteAt l 5)) ((byteAt l 5).testBit 2) (quarter (byteAt l 5 / 16))
      (halfAt l 6) (halfAt l 8) (halfAt l 10)
  else if byteAt l 1 = 0x12 then .position link (idOf l) (halfAt l 5) (halfAt l 7)
  else .withdraw link (idOf l)

/-- A complete message is judged: its length byte, then its CRC (R19). -/
def judgeMessage (link : Arm) (l : List Byte) : Instr :=
  if byteAt l 2 = l.length && sealMessage ((l.drop 1).dropLast) == l then messageCommand link l
  else .armLinkMessageDiscard link

/-- The receiver of a link is set. -/
def State.setLinkRx (link : Arm) (x : LinkReceiver) (s : State) : State :=
  { s with aqu := { s.aqu with linkRx := s.aqu.linkRx.set link x } }

/-- A message begins, or goes on, with these bytes (R18). -/
def State.readMessage (link : Arm) (l : List Byte) (s : State) : State :=
  s.setLinkRx link { s.aqu.linkRx.get link with message := some l }

/-- A message ends with command `c`, its row: the receiver hunts again (R18). -/
def State.endMessage (link : Arm) (c : Instr) (s : State) : State :=
  (s.setLinkRx link { message := none, ended := (s.aqu.linkRx.get link).ended + 1 }).enqueue c

/-- A byte joins the message in progress (R18, R19). An unknown kind ends the message at that byte (log 39). -/
def State.messageByte (link : Arm) (l : List Byte) (s : State) : State :=
  match linkLength (l.getD 1 0) with
  | none => s.endMessage link (.armLinkMessageDiscard link)
  | some n => if n ≤ l.length then s.endMessage link (judgeMessage link l) else s.readMessage link l

/-- A character read on the link of an arm (R18, R19). A character without its stop bit ends the message in progress, and the
receiver hunts from the next character on (log 39). The link of an absent arm takes nothing (R1). -/
def State.linkCharacter (link : Arm) (b : Byte) (stopOk : Bool) (s : State) : State :=
  if s.present link then
    match (s.aqu.linkRx.get link).message with
    | none => if stopOk && b == syncByte then s.readMessage link [b] else s
    | some l => if stopOk then s.messageByte link (l ++ [b]) else s.endMessage link (.armLinkMessageDiscard link)
  else s

/-- The byte of a 10-bit character as its ten bits were read, and whether its stop bit was read 1 (R18): the start bit,
8 data bits from the least significant, the stop bit. -/
def readCharacter (bits : List Bool) : Byte × Bool := (byte (Layout.bits ((bits.drop 1).take 8)), bits.getD 9 false)

/-- The ten bits of a character come in on ALiRX (R18). -/
def State.linkBits (link : Arm) (bits : List Bool) (s : State) : State :=
  s.linkCharacter link (readCharacter bits).1 (readCharacter bits).2

/-- The link of an arm rests for a number of bit times behind a byte (R18, R19): more than 3 byte times of 10 bit times
break off a message in progress. -/
def State.linkRest (link : Arm) (bitTimes : Nat) (s : State) : State :=
  if (s.aqu.linkRx.get link).message.isSome ∧ 3 * 10 < bitTimes then s.endMessage link (.armLinkByteGap link) else s

/-- The levels of ALiTX while a message is sent, one for each bit time (R18, R184, R185). -/
def LinkMessage.levels (m : LinkMessage) : List Bool := m.bytes.flatMap charBits

/-! ## Floor line -/

/-- One bit time of the floor line, recessive as true, as the receiver reads it (R113, R114): the count of recessive bit
times goes on, or returns to 0 at a dominant bit; a character in progress takes the bit; a dominant bit while none is in
progress is a start bit. Where the bits of an unframed character are taken for a start bit, the receiver hunts until the line
is idle, and 12 recessive bit times end any character. -/
def Receiver.readBit (level : Bool) (x : Receiver) : Receiver :=
  { x with
    rest := if level then x.rest + 1 else 0
    bits := match x.bits with
      | none => if level then none else some [false]
      | some l => if l.length < 9 then some (l ++ [level]) else none
    pause := if x.bits.isNone && level then x.pause + 1 else 0 }

/-- The rows that a bit of the floor line completes: a character at its tenth bit (R113), the line idle at 12 recessive bit
times (R114), and a gap at more than 30 bit times of rest after a character (R125). -/
def Receiver.bitRows (level : Bool) (x : Receiver) : List Instr :=
  (match x.bits with
    | none => []
    | some l => if l.length < 9 then [] else
        [.floorCharacterReceived (readCharacter (l ++ [level])).1 (readCharacter (l ++ [level])).2])
  ++ (if (x.readBit level).rest = 12 then [.lineIdle] else [])
  ++ (if (x.readBit level).pause = 31 then [.receiveGap] else [])

/-- A bit of the floor line is read, whoever sent it (R113, R114): while FLI works, the receiver counts it, and the rows that
it completes join the queue. -/
def State.lineBit (level : Bool) (s : State) : State :=
  let rows := s.fli.rx.bitRows level
  if s.part.working then
    { s.modRx fun x => { x.readBit level with rows := x.rows + rows.length } with pending := s.pending ++ rows }
  else s

/-! ## Maintenance port -/

/-- The number of argument bytes of a command code (R187). -/
def argumentLength (code : Nat) : Option Nat :=
  match code with
  | 0x01 | 0x02 | 0x06 | 0x09 | 0x12 | 0x13 | 0x30 => some 0
  | 0x05 | 0x07 | 0x08 | 0x10 | 0x11 | 0x14 => some 1
  | 0x15 => some 2
  | 0x03 | 0x04 | 0x16 => some 3
  | 0x20 => some 184
  | _ => none

/-- An event set of three bytes (R187). -/
def eventSetAt (l : List Byte) : BitVec 24 := BitVec.ofNat 24 (byteAt l 0 + 256 * byteAt l 1 + 65536 * byteAt l 2)

/-- The command of a code with its argument bytes (R187). -/
def portCommand (code : Nat) (a : List Byte) : Option Instr :=
  match code with
  | 0x01 => some .readStatus
  | 0x02 => some .readEvents
  | 0x03 => some (.acknowledgeEvents (eventSetAt a))
  | 0x04 => some (.setMask (eventSetAt a))
  | 0x05 => some (.readQueue (a.getD 0 0))
  | 0x06 => some .readCrossing
  | 0x07 => some (.readSegment (a.getD 0 0))
  | 0x08 => some (.readNeighbour (a.getD 0 0))
  | 0x09 => some .readConfig
  | 0x10 => some (.closeArm (a.getD 0 0))
  | 0x11 => some (.openArm (a.getD 0 0))
  | 0x12 => some .stop
  | 0x13 => some .release
  | 0x14 => some (if a.getD 0 0 = 0x0F then .confirmClearCrossing else .confirmClearArm (a.getD 0 0))
  | 0x15 => some (.purgeCarrier (halfAt a 0))
  | 0x16 => some (.setWalkway (halfAt a 0) (a.getD 2 0))
  | 0x20 => some (.writeConfig a)
  | 0x30 => some .restart
  | _ => none

/-- The checks of R177 on the bytes of a transaction that carries no idle frame: the code known, the frame whole, every
fill byte 0, the CRC right; the command when they pass. -/
def checkCommand (sdi : List Byte) : Option Instr :=
  match argumentLength (byteAt sdi 0) with
  | none => none
  | some n =>
    let frame := sdi.take (n + 3)
    if frame.length = n + 3 && crc16Ok frame && (sdi.drop (n + 3)).all (· == 0) then
      portCommand (byteAt sdi 0) ((frame.drop 1).take n)
    else none

/-- The command of a transaction of `bits` bits whose whole bytes on SDI were `sdi` (R176, R177, R187). -/
def transactionCommand (bits : Nat) (sdi : List Byte) : Instr :=
  match sdi with
  | [] => .idleFrame bits
  | b :: _ =>
    if bits % 8 ≠ 0 ∨ b = 0 then .idleFrame bits
    else (checkCommand sdi).getD (.badCommandFrame b)

/-- The bits of a byte on SDI and SDO, the most significant first (R176, R184). -/
def portBits (b : Byte) : List Bool := (charBits b).tail.dropLast.reverse

/-- The byte of eight bits of SDI, the most significant first (R176, R184). -/
def portByte (bits : List Bool) : Byte := byte (Layout.bits bits.reverse)

/-- The whole bytes of a run of bits of SDI; the first argument bounds their number. -/
def portBytes : Nat → List Bool → List Byte
  | 0, _ => []
  | n + 1, l => if l.length < 8 then [] else portByte (l.take 8) :: portBytes n (l.drop 8)

/-- The transaction in progress is set. -/
def State.setTransaction (x : Option Transaction) (s : State) : State := s.modMtp fun p => { p with transaction := x }

/-- CS_N is asserted: a transaction begins, and the buffer's state sets the stream that SDO carries in it (R176, R177). While
RST_N is asserted the part is held, and none begins (R163). -/
def State.selectPort (s : State) : State :=
  if s.scu.rstHeld then s else s.setTransaction (some { sdi := [], stream := s.mtp.buffer.stream })

/-- A rising edge of SCK: SDI is sampled (R176). -/
def State.clockPort (sdi : Bool) (s : State) : State :=
  match s.mtp.transaction with
  | none => s
  | some x => s.setTransaction (some { x with sdi := x.sdi ++ [sdi] })

/-- CS_N is deasserted: the transaction ends, and its command joins the queue (R176). One that a restart has broken off
gives none. -/
def State.deselectPort (s : State) : State :=
  match s.mtp.transaction with
  | none => s
  | some x =>
    (s.modMtp fun p => { p with transaction := none, carried := p.carried ++ [x.stream] }).enqueue
      (transactionCommand x.sdi.length (portBytes (x.sdi.length / 8) x.sdi))

/-- Bit `k` of the stream that SDO carries in a transaction: the response's bytes from the first, each from its most
significant bit, and 0x00 for every byte clocked beyond it (R176, R184, R187). -/
def Response.streamBit (r : Response) (k : Nat) : Bool := (r.bytes.flatMap portBits).getD k false

/-- SDO as the next rising edge of SCK finds it; not driven, and so none, while no transaction is in progress and while
RST_N is asserted (R176). After a restart that has broken off a transaction it is not driven until CS_N is asserted again
(log 41). -/
def State.sdo (s : State) : Option Bool :=
  if s.scu.rstHeld then none else s.mtp.transaction.map fun x => x.stream.streamBit x.sdi.length

end Sys2Proof.Machine
end

