-- ==== Sys2Proof/Machine/Lanes.lean ====
section
/-! DEFINITION. The meanings of the segment unit's own events (chapter 6): the hold timer and quiet proof. -/

namespace Sys2Proof.Machine

/-- HOLD_TIMER_EXPIRY (R100, R101): while the hold timer of the arm's end runs; the direction is evaluated. -/
def execHoldTimerExpiry (arm : Arm) (s : State) : Host.Outcome State Fault Refusal :=
  .next (s.event fun s =>
    if (s.seg arm).hold.isRunning then (s.modSeg arm fun g => { g with hold := .expired }).evaluate arm else s)

/-- QUIET_PROOF (R108): while the quiet timer of the arm's end runs. -/
def execQuietProof (arm : Arm) (s : State) : Host.Outcome State Fault Refusal :=
  .next (s.event fun s => if (s.seg arm).quiet.isRunning then s.proveQuiet arm else s)

end Sys2Proof.Machine
end

