-- ==== Sys2Proof/Machine/Restarts.lean ====
section
/-! DEFINITION. The meanings of the start-up commands (chapter 11): restarts, LOADING, the reference, the listening window,
the crossing quiet timer, the re-check and the end of a write of the store. A command that ends in a restart has no end of
an event: every block is at its restart values (R163). -/

namespace Sys2Proof.Machine

/-- POWER_ON (R163): taken whatever the level of RST_N, which it does not change; the oscillator's count starts. -/
def execPowerOn (s : State) : Host.Outcome State Fault Refusal :=
  .next ((s.modScu fun u => { u with osc := 0 }).restart .powerOn)

/-- RST_N_ASSERT (R163): the part is held at its restart values. Asserted twice, it is one assertion. -/
def execRstNAssert (s : State) : Host.Outcome State Fault Refusal :=
  .next (s.plainEvent fun s => (s.restart .resetPin).modScu fun u => { u with rstHeld := true })

/-- RST_N_DEASSERT (R163): LOADING begins. -/
def execRstNDeassert (s : State) : Host.Outcome State Fault Refusal :=
  .next (s.modScu fun u => { u with rstHeld := false })

/-- LOADING_COMPLETE (R165, R166). -/
def execLoadingComplete (cfgLow : Bool) (s : State) : Host.Outcome State Fault Refusal :=
  .next (s.event fun s => if s.part == .loading then s.endLoading cfgLow else s)

/-- REFERENCE_STAGE (R167, R168), in SETTLING. -/
def execReferenceStage (osc : Byte) (raw : RawLevels) (s : State) : Host.Outcome State Fault Refusal :=
  .next (s.event fun s => if s.part == .settling then s.reachStage osc raw else s)

/-- REFERENCE_EDGE_MISSING (R167), in SETTLING: the count and the stages reached return to 0. -/
def execReferenceEdgeMissing (s : State) : Host.Outcome State Fault Refusal :=
  .next (s.event fun s =>
    if s.part == .settling then s.modScu fun u => { u with refCount := 0, stages := 0 } else s)

/-- CLOCK_LOSS (R169): after the switch, while the clock monitor watches. -/
def execClockLoss (s : State) : Host.Outcome State Fault Refusal :=
  .next (s.event fun s =>
    if s.part.working && s.scu.onReference && s.scu.monitor then
      ((s.modScu fun u => { u with onReference := false, monitor := false }).raise .clockLoss).enterFaulted
    else s)

/-- LISTENING_WINDOW_EXPIRY (R170): while the listening window runs. -/
def execListeningWindowExpiry (s : State) : Host.Outcome State Fault Refusal :=
  .next (s.event fun s =>
    if s.part == .listening && s.scu.listening.isRunning then s.enterRecovering else s)

/-- The test at the crossing quiet timer's expiry holds (R171). -/
def State.crossingQuietProved (s : State) : Bool := s.xu.unmatched.isEmpty && s.boxIdle

/-- CROSSING_QUIET_EXPIRY (R171): in RECOVERING, while the crossing quiet timer runs. -/
def execCrossingQuietExpiry (s : State) : Host.Outcome State Fault Refusal :=
  .next (s.event fun s =>
    if s.part == .recovering && s.scu.crossingQuiet.isRunning then
      (if s.crossingQuietProved then s.resolveCrossing
      else s.modScu fun u => { u with crossingQuiet := .running 0 })
    else s)

/-- The CRC of the working configuration equals the one kept at LOADING (R174). -/
def State.configIntact (s : State) : Bool := s.scu.cfgCrc == some (Image.crc s.cfg)

/-- RECHECK_EXPIRY (R174): while the re-check timer runs. -/
def execRecheckExpiry (s : State) : Host.Outcome State Fault Refusal :=
  .next (s.event fun s =>
    if s.scu.recheck.isRunning then
      (if s.configIntact then s.modScu fun u => { u with recheck := .running 0 }
      else ((s.modScu fun u => { u with recheck := .stopped }).raise .configFault).enterFaulted)
    else s)

/-- CONFIG_WRITE_COMPLETE (R166): the image stands in the store, and SCU takes a restart with cause COMMAND. -/
def execConfigWriteComplete (s : State) : Host.Outcome State Fault Refusal :=
  .next (s.plainEvent fun s =>
    match s.scu.writing with
    | none => s
    | some image =>
      (s.modScu fun u => { u with store := .written image, writing := none }).restart .command)

end Sys2Proof.Machine
end

