-- ==== Sys2Proof/Machine/Staff.lean ====
section
/-! DEFINITION. The meanings of the walkway's timer commands (chapter 9). -/

namespace Sys2Proof.Machine

/-- The interval timer has run for the latched P (R142, R143): CYCLIC acts on it at once; in ON_DEMAND it stands expired,
and the latch point is reached when a request is pending. -/
def State.intervalEnds (s : State) : State :=
  match s.cfg.walkMode with
  | .cyclic => s.latchPoint
  | .onDemand =>
    let s := s.modWkp fun w => { w with interval := .expired }
    if s.wkp.request then s.latchPoint else s
  | .off => s

/-- INTERVAL_EXPIRY (R142, R143): while the interval timer runs. -/
def execIntervalExpiry (s : State) : Host.Outcome State Fault Refusal :=
  .next (s.event fun s => if s.wkp.interval.isRunning then s.intervalEnds else s)

/-- WALKWAY_BLOCKED (R146): while the clearance timer runs and the walkway is CLOSING. -/
def execWalkwayBlocked (s : State) : Host.Outcome State Fault Refusal :=
  .next (s.event fun s =>
    if s.wkp.state == .closing && s.wkp.clearance.isRunning then
      (s.modWkp fun w => { w with clearance := .stopped }).raise .walkwayBlocked
    else s)

/-- OPEN_TIMER_EXPIRY (R147): while the open timer runs and the walkway is OPEN. -/
def execOpenTimerExpiry (s : State) : Host.Outcome State Fault Refusal :=
  .next (s.event fun s =>
    if s.wkp.state == .opened && s.wkp.opening.isRunning then
      ((s.modWkp fun w => { w with state := .closed, opening := .stopped }).startInterval).trigger
    else s)

end Sys2Proof.Machine
end

