-- ==== Sys2Proof/Machine/Idle.lean ====
section
/-! DEFINITION. What happens when no command waits (log 1): the first event that the part owes by its own state, or, when
it owes none, the passing of one millisecond. Each event here is a row of the table and is taken by its own meaning. -/

namespace Sys2Proof.Machine

/-! ## Events owed -/

/-- `c` when the condition holds. -/
def owedIf (p : Bool) (c : Instr) : Option Instr := if p then some c else none

/-- The first arm that satisfies `p`, as a command. -/
def owedArm (p : Arm → Bool) (c : Arm → Instr) : Option Instr := (Arm.list.find? p).map c

/-- The first queued record that satisfies `p`. -/
def State.findRecord (s : State) (p : Carrier → Bool) : Option CarrierId :=
  Arm.list.findSome? fun i => ((s.queue i).find? p).map Carrier.id

/-- The first entry of a carrier list that satisfies `p`. -/
def State.findEntry (s : State) (p : Entry → Bool) : Option CarrierId :=
  Arm.list.findSome? fun i => (s.move i).bind fun m => (m.carriers.find? p).map Entry.id

/-- An entry's start timer has run for the start window. -/
def Entry.startOver (ms : Nat) (e : Entry) : Bool :=
  match e.status with
  | .granted start _ => start.reached ms
  | .crossing _ _ => false

/-- An entry's clear timer has run for the crossing clear time. -/
def Entry.clearOver (ms : Nat) (e : Entry) : Bool :=
  match e.status with
  | .granted _ _ => false
  | .crossing clear _ => clear.reached ms

/-- The round that is due (R76), the good frame that waits to be sorted (R127), the response that is ready (R177), the
items to send (R20) and the attempt to start (R120). -/
def State.owedNow (s : State) : List (Option Instr) :=
  [owedIf (s.jar.due && s.granting) .arbitrationRound,
   (if s.part.working then s.fli.rx.good.head?.map fun f => match f with
      | .report r own => .floorReportReceived r own
      | .request r own => .reportRequestReceived r own
    else none),
   (match s.mtp.buffer with
    | .empty => none
    | .busy _ => some .responseReady
    | .ready _ => none),
   Arm.list.findSome? fun i => match s.aqu.sends.get i with
      | [] => none
      | .clearance _ :: _ => some (.sendClearance i)
      | .refusal _ _ :: _ => some (.sendRefusal i),
   owedIf (s.fli.tx.state == .waiting && s.fli.tx.pending.isSome && s.lineIdle) .attemptStart]

/-- The raw level of an input has differed from its filtered level for the debounce time, while its filter runs (R60, R61,
R144). -/
def State.filterTurns (s : State) (input : Input) : Bool :=
  s.runsFilter input && (s.debounce input).timer.reached s.cfg.debounce

/-- The inputs, in the order in which the part takes their events (log 1). -/
def Input.list : List Input := Arm.list.map .ent ++ Arm.list.map .ext ++ [.box, .button]

/-- The changes of filtered levels and the expiries of the junction's timers (R34, R61, R62, R68, R71, R100, R108,
R158). -/
def State.owedJunction (s : State) : List (Option Instr) :=
  [(Input.list.find? s.filterTurns).map .detectorFilterChange,
   (s.findRecord fun c => !c.silent && s.cfg.carrierSilence ≤ c.silence).map .carrierMute,
   (s.findEntry (Entry.startOver s.cfg.startWindow)).map .startWindowExpiry,
   (s.findEntry (Entry.clearOver (1000 * s.cfg.clearTime))).map .crossingStall,
   owedArm (fun i => (s.xu.ent.get i).stuckTimer.reached (1000 * s.cfg.stuckTime)) fun i => .detectorFault (.ent i),
   owedArm (fun i => (s.xu.ext.get i).stuckTimer.reached (1000 * s.cfg.stuckTime)) fun i => .detectorFault (.ext i),
   owedIf (s.xu.box.stuckTimer.reached (1000 * s.cfg.stuckTime)) (.detectorFault .box),
   owedArm (fun i => (s.seg i).hold.reached (1000 * s.cfg.directionHold)) .holdTimerExpiry,
   owedArm (fun i => (s.seg i).quiet.reached (1000 * (s.arm i).quietTime)) .quietProof,
   owedIf (s.hld.settle.reached s.cfg.holdSettle) .settleTimerExpiry]

/-- A neighbour record whose silence window is reached and has an effect (R132). -/
def State.fallsSilent (s : State) (i : Arm) : Bool :=
  s.part.working && s.hasNeighbour i && silenceWindow s.cfg ≤ (s.nbr i).silence && match (s.nbr i).state with
    | .awaited => !(s.nbr i).late
    | .live => true
    | .silent => false

/-- The backoff timer has run for the backoff (R122): `backoffBits` bit times, in µs. -/
def State.backoffOver (s : State) : Bool :=
  match s.fli.tx.backoff with
  | .stopped => false
  | .running ms => s.fli.tx.backoffBits * bitTime s.cfg ≤ 1000 * ms
  | .expired => false

/-- The expiries of the floor line, of the neighbours, of the walkway and of start-up (R118, R119, R122, R124, R132, R142,
R146, R147, R170, R171, R174). -/
def State.owedLine (s : State) : List (Option Instr) :=
  [owedArm s.fallsSilent .neighbourSilent,
   owedIf (s.part == .listening && s.scu.listening.reached (silenceWindow s.cfg)) .listeningWindowExpiry,
   owedIf (s.part == .recovering && s.scu.crossingQuiet.reached (1000 * s.cfg.crossingQuiet)) .crossingQuietExpiry,
   owedIf (s.scu.recheck.reached 1000) .recheckExpiry,
   owedIf (s.fli.tx.state == .backoff && s.backoffOver) .backoffExpiry,
   owedIf (s.fli.tx.periodic.reached s.cfg.reportInterval) .periodicTimerExpiry,
   owedIf (s.fli.tx.spacing.reached s.cfg.changeSpacing) .spacingElapsed,
   owedIf (!s.fli.tx.faultRaised && s.fli.tx.lineFault.reached (silenceWindow s.cfg / 2)) .lineFault,
   owedIf (s.cfg.walkMode != .off && s.wkp.interval.reached (1000 * s.wkp.latchedP)) .intervalExpiry,
   owedIf (s.wkp.state == .closing && s.wkp.clearance.reached (1000 * s.cfg.walkClearance)) .walkwayBlocked,
   owedIf (s.wkp.state == .opened && s.wkp.opening.reached (1000 * s.wkp.latchedW)) .openTimerExpiry]

/-- The first event the part owes; none while RST_N is asserted. -/
def State.owed (s : State) : Option Instr :=
  if s.scu.rstHeld then none else (s.owedNow ++ s.owedJunction ++ s.owedLine).findSome? id

/-! ## One millisecond -/

/-- One millisecond for an entry of a carrier list. -/
def Entry.tick (e : Entry) : Entry :=
  { e with status := match e.status with
      | .granted start deferred => .granted start.tick deferred
      | .crossing clear stalled => .crossing clear.tick stalled }

/-- One millisecond for a movement record. -/
def Movement.tick (m : Movement) : Movement := { m with carriers := m.carriers.map Entry.tick }

/-- One millisecond for a carrier record: the silence time stops at 65535 (R22). -/
def Carrier.tick (c : Carrier) : Carrier := { c with silence := min 65535 (c.silence + 1) }

/-- One millisecond for the debouncing of an input. -/
def Debounce.tick (d : Debounce) : Debounce := { d with timer := d.timer.tick }

/-- One millisecond for a filter. -/
def Filter.tick (f : Filter) : Filter := { f with input := f.input.tick, stuckTimer := f.stuckTimer.tick }

/-- One millisecond for a segment-end record. -/
def SegEnd.tick (g : SegEnd) : SegEnd := { g with hold := g.hold.tick, quiet := g.quiet.tick }

/-- One millisecond for a neighbour record: the silence time stops at 65535 (R129). -/
def Neighbour.tick (n : Neighbour) : Neighbour := { n with silence := min 65535 (n.silence + 1) }

/-- One millisecond for the transmitter. -/
def Transmitter.tick (t : Transmitter) : Transmitter :=
  { t with
    periodic := t.periodic.tick
    spacing := t.spacing.tick
    backoff := t.backoff.tick
    lineFault := t.lineFault.tick }

/-- One millisecond for the start and clock unit. -/
def Scu.tick (u : Scu) : Scu :=
  { u with listening := u.listening.tick, crossingQuiet := u.crossingQuiet.tick, recheck := u.recheck.tick }

/-- One millisecond for the walkway. -/
def Wkp.tick (w : Wkp) : Wkp :=
  { w with
    interval := w.interval.tick
    clearance := w.clearance.tick
    opening := w.opening.tick
    button := w.button.tick }

/-- One millisecond for the crossing unit. -/
def Xu.tick (x : Xu) : Xu :=
  { x with
    moves := x.moves.map fun m => m.map Movement.tick
    ent := x.ent.map Filter.tick
    ext := x.ext.map Filter.tick
    box := x.box.tick }

/-- One millisecond passes: every running timer runs on, and the silence times count up. A part held at its restart values
has no running timer and no record (R163). -/
def State.tick (s : State) : State :=
  { s with
    scu := s.scu.tick
    aqu := { s.aqu with queues := s.aqu.queues.map fun q => q.map Carrier.tick }
    xu := s.xu.tick
    segs := s.segs.map SegEnd.tick
    nbrs := if s.part.working then s.nbrs.map Neighbour.tick else s.nbrs
    fli := { s.fli with tx := s.fli.tx.tick }
    wkp := s.wkp.tick
    hld := { s.hld with settle := s.hld.settle.tick }
    now := s.now + 1 }

end Sys2Proof.Machine
end

