-- ==== Sys2Proof/Machine/Dispatch.lean ====
section
/-! DEFINITION. The effect of each command: one arm per constructor, each the direct call of its meaning. -/

namespace Sys2Proof.Machine

/-- What a command does to everything but the queue. -/
def exec (i : Instr) (s : State) : Host.Outcome State Fault Refusal :=
  match i with
  | .powerOn => Sys2Proof.Machine.execPowerOn s
  | .rstNAssert => Sys2Proof.Machine.execRstNAssert s
  | .rstNDeassert => Sys2Proof.Machine.execRstNDeassert s
  | .loadingComplete cfgLow => Sys2Proof.Machine.execLoadingComplete cfgLow s
  | .referenceStage osc raw => Sys2Proof.Machine.execReferenceStage osc raw s
  | .referenceEdgeMissing => Sys2Proof.Machine.execReferenceEdgeMissing s
  | .clockLoss => Sys2Proof.Machine.execClockLoss s
  | .listeningWindowExpiry => Sys2Proof.Machine.execListeningWindowExpiry s
  | .crossingQuietExpiry => Sys2Proof.Machine.execCrossingQuietExpiry s
  | .recheckExpiry => Sys2Proof.Machine.execRecheckExpiry s
  | .configWriteComplete => Sys2Proof.Machine.execConfigWriteComplete s
  | .armLinkByteGap link => Sys2Proof.Machine.execArmLinkByteGap link s
  | .announce link id cls priority exit length distance speed => Sys2Proof.Machine.execAnnounce link id cls priority exit length distance speed s
  | .position link id distance speed => Sys2Proof.Machine.execPosition link id distance speed s
  | .withdraw link id => Sys2Proof.Machine.execWithdraw link id s
  | .sendClearance link => Sys2Proof.Machine.execSendClearance link s
  | .sendRefusal link => Sys2Proof.Machine.execSendRefusal link s
  | .carrierMute id => Sys2Proof.Machine.execCarrierMute id s
  | .arbitrationRound => Sys2Proof.Machine.execArbitrationRound s
  | .detectorFilterChange input => Sys2Proof.Machine.execDetectorFilterChange input s
  | .detectorFault input => Sys2Proof.Machine.execDetectorFault input s
  | .startWindowExpiry id => Sys2Proof.Machine.execStartWindowExpiry id s
  | .crossingStall id => Sys2Proof.Machine.execCrossingStall id s
  | .holdTimerExpiry arm => Sys2Proof.Machine.execHoldTimerExpiry arm s
  | .quietProof arm => Sys2Proof.Machine.execQuietProof arm s
  | .floorReportReceived frame own => Sys2Proof.Machine.execFloorReportReceived frame own s
  | .reportRequestReceived frame own => Sys2Proof.Machine.execReportRequestReceived frame own s
  | .neighbourSilent arm => Sys2Proof.Machine.execNeighbourSilent arm s
  | .lineIdle => Sys2Proof.Machine.execLineIdle s
  | .receiveGap => Sys2Proof.Machine.execReceiveGap s
  | .attemptStart => Sys2Proof.Machine.execAttemptStart s
  | .frameSent => Sys2Proof.Machine.execFrameSent s
  | .lostLine => Sys2Proof.Machine.execLostLine s
  | .backoffExpiry => Sys2Proof.Machine.execBackoffExpiry s
  | .periodicTimerExpiry => Sys2Proof.Machine.execPeriodicTimerExpiry s
  | .spacingElapsed => Sys2Proof.Machine.execSpacingElapsed s
  | .lineFault => Sys2Proof.Machine.execLineFault s
  | .intervalExpiry => Sys2Proof.Machine.execIntervalExpiry s
  | .walkwayBlocked => Sys2Proof.Machine.execWalkwayBlocked s
  | .openTimerExpiry => Sys2Proof.Machine.execOpenTimerExpiry s
  | .settleTimerExpiry => Sys2Proof.Machine.execSettleTimerExpiry s
  | .idleFrame bits => Sys2Proof.Machine.execIdleFrame bits s
  | .badCommandFrame code => Sys2Proof.Machine.execBadCommandFrame code s
  | .readStatus => Sys2Proof.Machine.execReadStatus s
  | .readEvents => Sys2Proof.Machine.execReadEvents s
  | .acknowledgeEvents kinds => Sys2Proof.Machine.execAcknowledgeEvents kinds s
  | .setMask enables => Sys2Proof.Machine.execSetMask enables s
  | .readQueue arm => Sys2Proof.Machine.execReadQueue arm s
  | .readCrossing => Sys2Proof.Machine.execReadCrossing s
  | .readSegment arm => Sys2Proof.Machine.execReadSegment arm s
  | .readNeighbour arm => Sys2Proof.Machine.execReadNeighbour arm s
  | .readConfig => Sys2Proof.Machine.execReadConfig s
  | .closeArm arm => Sys2Proof.Machine.execCloseArm arm s
  | .openArm arm => Sys2Proof.Machine.execOpenArm arm s
  | .stop => Sys2Proof.Machine.execStop s
  | .release => Sys2Proof.Machine.execRelease s
  | .confirmClearCrossing => Sys2Proof.Machine.execConfirmClearCrossing s
  | .confirmClearArm target => Sys2Proof.Machine.execConfirmClearArm target s
  | .purgeCarrier id => Sys2Proof.Machine.execPurgeCarrier id s
  | .setWalkway p w => Sys2Proof.Machine.execSetWalkway p w s
  | .writeConfig image => Sys2Proof.Machine.execWriteConfig image s
  | .restart => Sys2Proof.Machine.execRestart s
  | .armLinkMessageDiscard link => Sys2Proof.Machine.execArmLinkMessageDiscard link s
  | .floorCharacterReceived char stopOk => Sys2Proof.Machine.execFloorCharacterReceived char stopOk s
  | .responseReady => Sys2Proof.Machine.execResponseReady s

end Sys2Proof.Machine
end

