-- ==== Sys2Proof/Machine/Step.lean ====
section
/-! DEFINITION. One step: the command at the front of the queue; on an empty queue, what the part does of itself (log 1). -/

namespace Sys2Proof.Machine

/-- One step with no command waiting: the event the part owes, or one millisecond (Idle.lean, log 1). -/
def stepIdle (s : State) : Host.Outcome State Fault Refusal :=
  match s.owed with
  | some c => exec c s
  | none => .next s.tick

/-- One step. -/
def step (s : State) : Host.Outcome State Fault Refusal :=
  match s.pending with
  | [] => stepIdle s
  | c :: rest => exec c { s with pending := rest }

/-- The state with the command that a word of the table spells put at the front of its queue; unchanged where the word
spells none. No row of the table has bits. Commands come from outside the machine: the sender puts them in the queue. -/
def State.withFetchWord (s : State) (nbits w : Nat) : State :=
  match decodeTableWord nbits w with
  | none => s
  | some c => { s with pending := c :: s.pending }

end Sys2Proof.Machine
end

