-- ==== Sys2Proof/Safety.lean ====
section
/-! DEFINITION. What must stay true of the part, and the words in which statements about it are made: the law of the
crossing (R55, R57), the bounds of what it holds, and what one event leaves alone. -/

namespace Sys2Proof.Machine

/-- The law of the crossing (R51, R55, R57): every movement record leads to another arm, holds at least one carrier and
holds every cell of its cell set; and every HELD cell lies in the cell set of the record that it names. -/
def CrossingLaw (s : State) : Prop :=
  (∀ i m, s.move i = some m →
    m.exit ≠ i ∧ m.carriers ≠ [] ∧ ∀ k ∈ cellSet i m.exit, s.cell k = .held i)
  ∧ ∀ k i, s.cell k = .held i → ∃ m, s.move i = some m ∧ k ∈ cellSet i m.exit

/-- The bounds the rules set to what the part holds (R20, R22, R65, R90, R140). -/
def Bounded (s : State) : Prop :=
  (∀ i, (s.queue i).length ≤ 4)
  ∧ (∀ i, (s.aqu.sends.get i).length ≤ 16)
  ∧ s.xu.unmatched.length ≤ 4
  ∧ (∀ i, (s.seg i).r ≤ 15 ∧ (s.seg i).occ ≤ 15)
  ∧ (10 ≤ s.wkp.stagedP ∧ s.wkp.stagedP ≤ 600 ∧ s.wkp.stagedW ≤ 120)
  ∧ (10 ≤ s.wkp.latchedP ∧ s.wkp.latchedP ≤ 600 ∧ s.wkp.latchedW ≤ 120)

/-- The law of the queues (R22, R85): every record stands on the queue of its arrival arm, and an overdue designation stands
for the head of its arrival arm, WAITING, with the designated exit. -/
def QueueLaw (s : State) : Prop :=
  (∀ i, ∀ c ∈ s.queue i, c.arrival = i)
  ∧ ∀ o, s.jar.overdue = some o →
    ∃ h, s.head o.arrival = some h ∧ h.id = o.id ∧ h.state = .waiting ∧ h.exit = o.exit

/-- The law of the grants (R25, R57, R63): a carrier ID appears at most once among all queues; a GRANTED entry has its GRANTED
record, for the same exit, on the queue of its entry arm, and a GRANTED record its entry; no carrier list holds two GRANTED
entries for one carrier; and a movement record stands in RUNNING and FAULTED only. -/
def GrantLaw (s : State) : Prop :=
  (∀ i, ((s.queue i).map Carrier.id).Nodup)
  ∧ (∀ i j, i ≠ j → ∀ c ∈ s.queue i, ∀ d ∈ s.queue j, c.id ≠ d.id)
  ∧ (∀ i m, s.move i = some m → ∀ e ∈ m.carriers, e.status.isGranted = true →
      ∃ c ∈ s.queue i, c.id = e.id ∧ c.state = .granted ∧ c.exit = m.exit)
  ∧ (∀ i, ∀ c ∈ s.queue i, c.state = .granted → ∃ m, s.move i = some m ∧ ∃ e ∈ m.carriers, e.grantedTo c.id = true)
  ∧ (∀ i m, s.move i = some m → ((m.carriers.filter fun e => e.status.isGranted).map Entry.id).Nodup)
  ∧ ∀ i, s.move i ≠ none → s.part = .running ∨ s.part = .faulted

/-- Closing arm `i` ends the overdue designation: the arm is open, and the designated carrier arrives on it or leaves by it
(R85). -/
def ClosingEndsDesignation (s : State) (i : Arm) : Prop :=
  s.closed i = false ∧ ∃ o, s.jar.overdue = some o ∧ (o.arrival = i ∨ o.exit = i)

/-- An overdue designation, where one stands, is not for the record of carrier `id` on the queue of arm `i`. -/
def DesignationSpares (s : State) (i : Arm) (id : CarrierId) : Prop :=
  QueueLaw s ∧ ∀ o, s.jar.overdue = some o → o.arrival = i → o.id ≠ id

/-- `t` is `u` but for what the end of an event may bring up to date: the round due (R97), the falling due of a change
report (R119), the quiet timers (R108) and the settle timer (R158). `State.finish` says what each becomes. -/
def EventEndOf (u t : State) : Prop :=
  t.scu = u.scu ∧ t.aqu = u.aqu ∧ t.closures = u.closures ∧ t.xu = u.xu ∧ t.nbrs = u.nbrs ∧ t.wkp = u.wkp
  ∧ t.mtp = u.mtp ∧ t.now = u.now ∧ t.pending = u.pending
  ∧ t.jar = { u.jar with due := t.jar.due } ∧ (u.jar.due = true → t.jar.due = true)
  ∧ t.hld = { u.hld with settle := t.hld.settle }
  ∧ t.fli.rx = u.fli.rx
  ∧ t.fli.tx = { u.fli.tx with
      state := t.fli.tx.state, pending := t.fli.tx.pending, attempts := t.fli.tx.attempts,
      changeWaiting := t.fli.tx.changeWaiting }
  ∧ ∀ i, t.seg i = { u.seg i with quiet := (t.seg i).quiet }

/-- The command answers the state `u` that its own effect leaves, brought up to date as the end of every event does. -/
def Does (c : Instr) (s u : State) : Prop := exec c s = .next (State.finish s u)

/-- A report falls due at the end of an event that leaves `u` (R119). -/
def State.reportFallsDue (u : State) : Prop :=
  u.fli.tx.changeWaiting = true ∧ u.part.reporting = true ∧ u.fli.tx.state = .idle ∧ u.fli.tx.spacing = .expired

/-- The command does what `Does` says, and leaves the transmitter as `u` has it, or, where a report falls due at the event's
end, in WAITING for the first attempt at that report (R117, R119). -/
def Transmits (c : Instr) (s u : State) : Prop :=
  ∃ t, exec c s = .next t ∧ t = State.finish s u
    ∧ (u.reportFallsDue → t.fli.tx = { u.fli.tx with state := .waiting, pending := some .report, attempts := 1 })
    ∧ (¬ u.reportFallsDue → t.fli.tx = u.fli.tx)

/-- The command is an acting command of the maintenance port, or WRITE CONFIG, by the table of R178. -/
def actingCommand : Instr → Bool
  | .closeArm _ => true
  | .openArm _ => true
  | .stop => true
  | .release => true
  | .confirmClearCrossing => true
  | .confirmClearArm _ => true
  | .purgeCarrier _ => true
  | .setWalkway _ _ => true
  | _ => false

/-- The command code of an acting command (R187). -/
def actingCode : Instr → Byte
  | .closeArm _ => 0x10
  | .openArm _ => 0x11
  | .stop => 0x12
  | .release => 0x13
  | .confirmClearCrossing => 0x14
  | .confirmClearArm _ => 0x14
  | .purgeCarrier _ => 0x15
  | .setWalkway _ _ => 0x16
  | _ => 0

/-- The hold-cause set is the same. -/
def SameCauses (s t : State) : Prop :=
  t.hld.overrun = s.hld.overrun ∧ t.hld.unauthorised = s.hld.unauthorised ∧ t.hld.operator = s.hld.operator

/-- The part as a command's transaction leaves it: SDO has carried its stream, and the buffer is BUSY with the response
(R177). -/
def State.answered (r : Response) (s : State) : State :=
  { s with mtp := { s.mtp with sdo := s.mtp.stream, carried := s.mtp.carried.tail, buffer := .busy r } }

/-- The part as the row of a message on a link leaves it, with this send list (R18, R20). -/
def State.heardOn (link : Arm) (l : List SendItem) (s : State) : State :=
  { s with aqu := { s.aqu with
      linkRx := s.aqu.linkRx.set link (s.aqu.linkRx.get link).takeRow, sends := s.aqu.sends.set link l } }

/-- A send list after an item has fallen due on it (R20). -/
def withDue (item : SendItem) (l : List SendItem) : List SendItem := if l.length < 16 then l ++ [item] else l

/-- A send list after a CLEARANCE for a carrier has fallen due on it (R20, R36). -/
def withClearance (id : CarrierId) (l : List SendItem) : List SendItem :=
  if l.contains (.clearance id) then l else withDue (.clearance id) l

/-- A send list after a CLEARANCE has fallen due for every record of a queue, head first (R156, step 4). -/
def withClearances (q : List Carrier) (l : List SendItem) : List SendItem :=
  q.foldl (fun l c => withClearance c.id l) l

/-- The entry stays in its carrier list at hold entry: it is CROSSING, or its carrier is committed (R156, step 3). -/
def State.keepsEntry (s : State) (i : Arm) (e : Entry) : Bool := !e.status.isGranted || s.entryCommitted i e.id

/-- What step 3 of hold entry leaves (R156, R59): each carrier list without the GRANTED entries of carriers that are not
committed, a record that it empties ended; their reservations released; their records WAITING, or MUTE when silent; and the
records of committed carriers as they were. -/
def GrantsHeld (s t : State) : Prop :=
  (∀ i, t.move i = (s.move i).bind fun m =>
      let kept := m.carriers.filter (s.keepsEntry i)
      if kept = [] then none else some { m with carriers := kept })
  ∧ (∀ i m, s.move i = some m →
      (t.seg m.exit).r = (s.seg m.exit).r - (m.carriers.filter fun e => !s.keepsEntry i e).length)
  ∧ ∀ i, ∀ c ∈ s.queue i, c.state = .granted →
      t.recordOn i c.id = some (if c.committed s.cfg then c else { c with state := if c.silent then .mute else .waiting })

/-- The walkway as the latch point of a cycle leaves it (R143, R145); `clear` is the OPEN condition. -/
def Wkp.latched (clear : Bool) (w : Wkp) : Wkp :=
  if w.stagedW = 0 then
    { w with latchedP := w.stagedP, latchedW := 0, request := false, interval := .running 0 }
  else if clear then
    { w with
      latchedP := w.stagedP, latchedW := w.stagedW, state := .opened, interval := .stopped, clearance := .stopped,
      opening := .running 0, request := false }
  else
    { w with
      latchedP := w.stagedP, latchedW := w.stagedW, state := .closing, interval := .stopped, clearance := .running 0 }

/-- A view `v` of an arm's segment end with `r` own reservations fails the consistency test (R96). -/
def State.viewFails (s : State) (i : Arm) (v : Int) (r : Nat) : Prop :=
  v < 0 ∨ (s.effCapacity i : Int) < if s.role i = .far then v else v + r

/-- From `s` to `t` the segment end of an arm has taken the view `v`, with `r` own reservations, under the consistency test:
the view stands clamped into 0 to 15, and where the test fails, the unsure flag is set and COUNT_INCONSISTENT raised (R96). -/
def ViewTested (i : Arm) (v : Int) (r : Nat) (s t : State) : Prop :=
  (t.seg i).occ = min v.toNat 15
  ∧ ((t.seg i).unsure = true ↔ (s.seg i).unsure = true ∨ s.viewFails i v r)
  ∧ (t.flagged .countInconsistent = true ↔ s.flagged .countInconsistent = true ∨ s.viewFails i v r)

/-- From `s` to `t` one reservation of an arm's segment end has been released, with its consistency test; none stood where R
was 0 (R93, R96). -/
def Released (i : Arm) (s t : State) : Prop :=
  (t.seg i).r = (s.seg i).r - 1
  ∧ ((s.seg i).r ≠ 0 → ViewTested i (s.seg i).occ ((s.seg i).r - 1) s t)
  ∧ ((s.seg i).r = 0 → (t.seg i).occ = (s.seg i).occ ∧ (t.seg i).unsure = (s.seg i).unsure
      ∧ t.flagged .countInconsistent = s.flagged .countInconsistent)

/-- The OPEN test passes with the unmatched list `l` and without the movement record of entry arm `ended`: in CLOSING, the
list empty, and no walkway arm in any other movement record (R145). -/
def State.walkOpens (s : State) (l : List Unmatched) (ended : Option Arm) : Prop :=
  s.wkp.state = .closing ∧ s.granting = true ∧ l = []
  ∧ ∀ k m, some k ≠ ended → s.move k = some m → s.walkArm k = false ∧ s.walkArm m.exit = false

/-- From `s` to `t` the OPEN test has been made, which passes where `opens` holds: the walkway is then OPEN for the latched W,
and a round is due; otherwise the walkway stays as it is (R145). -/
def WalkTested (opens : Prop) (s t : State) : Prop :=
  (opens → t.jar.due = true ∧ t.wkp =
    { s.wkp with state := .opened, clearance := .stopped, opening := .running 0, request := false })
  ∧ (¬ opens → t.wkp = s.wkp)

/-- The reason, if any, for which a new ANNOUNCE is refused: the first test of R26 that applies. -/
def announceReason (s : State) (link : Arm) (id : CarrierId) (exit : Arm) (length : Half) : Option RefusalReason :=
  if s.inbound link = false then some .armClosed
  else if id = 0 ∨ 400 < length.toNat then some .badField
  else if exit = link ∨ s.outbound exit = false ∨ (s.path link exit).permitted = false then some .noRoute
  else if (∃ i, ∃ c ∈ s.queue i, c.id = id) ∨ (∃ i m, s.move i = some m ∧ ∃ e ∈ m.carriers, e.id = id)
      ∨ (∃ u ∈ s.xu.unmatched, u.id = id) then some .duplicate
  else if s.queueCapacity link ≤ (s.queue link).length then some .armFull
  else none

/-- Carrier `id` is in the box: CROSSING in a movement record, or named in the unmatched list by an ID other than 0. -/
def inBox (s : State) (id : CarrierId) : Prop :=
  (∃ i m, s.move i = some m ∧ ∃ e ∈ m.carriers, e.id = id ∧ e.isCrossing = true)
  ∨ (id ≠ 0 ∧ ∃ u ∈ s.xu.unmatched, u.id = id)

end Sys2Proof.Machine
end

