-- ==== Sys2Proof/Certificates/Slice0/Obligations.lean ====
section
/-! DEFINITION. The statements for the provers. `Does c s u` (Safety.lean) says that the command `c` answers the next state
`State.finish s u`: the state `u` of its own effect, brought up to date as the end of every event does
(`Obligations.EndOfEvent` says what that changes). -/

open Sys2Proof Sys2Proof.Machine

/-! ## The step -/

/-- A step takes the command at the front of the queue, on the state with the queue's rest. -/
def Obligations.StepTakesTheFrontCommand : Prop :=
  ∀ (c : Instr) (rest : List Instr) (s : State),
    step { s with pending := c :: rest } = exec c { s with pending := rest }

/-- No command stops the part, and none touches the queue of commands. On an empty queue a step takes an event the part owes,
or lets one millisecond pass: the model's choice (log 1). What the part owes is due, and it owes nothing only when nothing is
due: a round, a good frame, a response, an item to send, an attempt on an idle line; and every timer and silence time that has
run for its time (R34, R61, R62, R68, R71, R100, R108, R118, R119, R122, R124, R132, R142, R146, R147, R158, R170, R171, R174),
the backoff in bit times of the configured rate (R113) against whole milliseconds (log 26). One millisecond raises each running
timer and each silence time by 1, a silence time up to 65535 (R22, R129), and changes nothing else. -/
def Obligations.NoCommandStopsAndAnIdleStepGoesOn : Prop :=
  (∀ (c : Instr) (s : State), ∃ t, exec c s = .next t ∧ t.pending = s.pending)
  ∧ (∀ s : State, s.pending = [] →
    (∀ c, s.owed = some c → step s = exec c s) ∧ (s.owed = none → step s = .next s.tick))
  ∧ (∀ s : State,
    let ranFor (ms : Nat) (t : Timer) : Prop := ∃ n, t = .running n ∧ ms ≤ n
    let multiple : Nat := match s.cfg.silenceMultiple with
      | .x3 => 3
      | .x5 => 5
      | .x8 => 8
    let window := multiple * s.cfg.reportInterval
    let bitTime : Nat := match s.cfg.bitRate with
      | .k125 => 8
      | .k250 => 4
      | .k500 => 2
    let due (c : Instr) : Prop := match c with
      | .arbitrationRound => s.jar.due = true ∧ s.granting = true
      | .floorReportReceived f own => s.part.working = true ∧ s.fli.rx.good.head? = some (.report f own)
      | .reportRequestReceived f own => s.part.working = true ∧ s.fli.rx.good.head? = some (.request f own)
      | .responseReady => ∃ r, s.mtp.buffer = .busy r
      | .sendClearance link => ∃ id rest, s.aqu.sends.get link = .clearance id :: rest
      | .sendRefusal link => ∃ id reason rest, s.aqu.sends.get link = .refusal id reason :: rest
      | .attemptStart => s.fli.tx.state = .waiting ∧ s.fli.tx.pending ≠ none ∧ 12 ≤ s.fli.rx.rest
      | .detectorFilterChange input => s.runsFilter input = true ∧ ranFor s.cfg.debounce (s.debounce input).timer
      | .carrierMute id => ∃ i, ∃ r ∈ s.queue i, r.id = id ∧ r.silent = false ∧ s.cfg.carrierSilence ≤ r.silence
      | .startWindowExpiry id => ∃ i m e start deferred, s.move i = some m ∧ e ∈ m.carriers ∧ e.id = id
          ∧ e.status = .granted start deferred ∧ ranFor s.cfg.startWindow start
      | .crossingStall id => ∃ i m e clear stalled, s.move i = some m ∧ e ∈ m.carriers ∧ e.id = id
          ∧ e.status = .crossing clear stalled ∧ ranFor (1000 * s.cfg.clearTime) clear
      | .detectorFault (.ent i) => ranFor (1000 * s.cfg.stuckTime) (s.xu.ent.get i).stuckTimer
      | .detectorFault (.ext j) => ranFor (1000 * s.cfg.stuckTime) (s.xu.ext.get j).stuckTimer
      | .detectorFault .box => ranFor (1000 * s.cfg.stuckTime) s.xu.box.stuckTimer
      | .holdTimerExpiry i => ranFor (1000 * s.cfg.directionHold) (s.seg i).hold
      | .quietProof i => ranFor (1000 * (s.arm i).quietTime) (s.seg i).quiet
      | .settleTimerExpiry => ranFor s.cfg.holdSettle s.hld.settle
      | .neighbourSilent i => s.part.working = true ∧ s.hasNeighbour i = true ∧ window ≤ (s.nbr i).silence
          ∧ ((s.nbr i).state = .live ∨ ((s.nbr i).state = .awaited ∧ (s.nbr i).late = false))
      | .listeningWindowExpiry => s.part = .listening ∧ ranFor window s.scu.listening
      | .crossingQuietExpiry => s.part = .recovering ∧ ranFor (1000 * s.cfg.crossingQuiet) s.scu.crossingQuiet
      | .recheckExpiry => ranFor 1000 s.scu.recheck
      | .backoffExpiry => s.fli.tx.state = .backoff
          ∧ ∃ ms, s.fli.tx.backoff = .running ms ∧ s.fli.tx.backoffBits * bitTime ≤ 1000 * ms
      | .periodicTimerExpiry => ranFor s.cfg.reportInterval s.fli.tx.periodic
      | .spacingElapsed => ranFor s.cfg.changeSpacing s.fli.tx.spacing
      | .lineFault => s.fli.tx.faultRaised = false ∧ ranFor (window / 2) s.fli.tx.lineFault
      | .intervalExpiry => s.cfg.walkMode ≠ .off ∧ ranFor (1000 * s.wkp.latchedP) s.wkp.interval
      | .walkwayBlocked => s.wkp.state = .closing ∧ ranFor (1000 * s.cfg.walkClearance) s.wkp.clearance
      | .openTimerExpiry => s.wkp.state = .opened ∧ ranFor (1000 * s.wkp.latchedW) s.wkp.opening
      | _ => False
    (s.scu.rstHeld = true → s.owed = none)
    ∧ (∀ c, s.owed = some c → due c)
    ∧ (s.scu.rstHeld = false → s.owed = none → ∀ c, ¬ due c))
  ∧ ∀ s : State,
    let later (t : Timer) : Timer := match t with
      | .stopped => .stopped
      | .running n => .running (n + 1)
      | .expired => .expired
    let older (silence : Nat) : Nat := min 65535 (silence + 1)
    let filter (x : Filter) : Filter :=
      { x with input := { x.input with timer := later x.input.timer }, stuckTimer := later x.stuckTimer }
    let entry (e : Entry) : Entry := { e with status := match e.status with
      | .granted start deferred => .granted (later start) deferred
      | .crossing clear stalled => .crossing (later clear) stalled }
    s.tick = { s with
      scu := { s.scu with
        listening := later s.scu.listening, crossingQuiet := later s.scu.crossingQuiet, recheck := later s.scu.recheck }
      aqu := { s.aqu with queues := .build fun i => (s.queue i).map fun r => { r with silence := older r.silence } }
      xu := { s.xu with
        moves := .build fun i => (s.move i).map fun m => { m with carriers := m.carriers.map entry }
        ent := .build fun i => filter (s.xu.ent.get i)
        ext := .build fun j => filter (s.xu.ext.get j)
        box := filter s.xu.box }
      segs := .build fun i => { s.seg i with hold := later (s.seg i).hold, quiet := later (s.seg i).quiet }
      nbrs := .build fun i =>
        { s.nbr i with silence := if s.part.working = true then older (s.nbr i).silence else (s.nbr i).silence }
      fli := { s.fli with tx := { s.fli.tx with
        periodic := later s.fli.tx.periodic, spacing := later s.fli.tx.spacing, backoff := later s.fli.tx.backoff
        lineFault := later s.fli.tx.lineFault } }
      wkp := { s.wkp with
        interval := later s.wkp.interval, clearance := later s.wkp.clearance, opening := later s.wkp.opening
        button := { s.wkp.button with timer := later s.wkp.button.timer } }
      hld := { s.hld with settle := later s.hld.settle }
      now := s.now + 1 }

/-- What the end of an event does: a change of admission makes a round due while the part grants (R97, R75). A change of the
node state, of the hold flag or of a report entry sets the change waiting flag, and so does a change of E, X, R or direction
of any present arm; a report falls due when the transmitter is IDLE and the spacing has elapsed (R119). The quiet timer of a
lock end or spur with quiet proof stops when the unsure flag is clear, starts when it has been set, and restarts at a change
of E, X, E_n or X_n (R108). The settle timer runs while the release condition holds: the unmatched list empty, no head without
a grant committed, the box sensor idle or not fitted (R158). That these tests are made once, at the end of every event, is the
model's reading of the rules (log 21), and so is that a count of a spur schedules a change report (log 14). -/
def Obligations.EndOfEvent : Prop :=
  ∀ old u : State, let t := State.finish old u
    EventEndOf u t
    ∧ t.jar.due = (u.jar.due || (u.granting && Arm.list.any fun i => !old.admits i && u.admits i))
    ∧ (let released : Prop := u.xu.unmatched = [] ∧ (∀ i h, u.head i = some h → h.state = .granted ∨ h.committed u.cfg = false)
          ∧ (u.cfg.boxFitted = false ∨ u.xu.box.level = false)
       u.heldForCarrier = true → u.part = .running →
        (released → t.hld.settle = if u.hld.settle.isRunning then u.hld.settle else .running 0)
        ∧ (¬ released → t.hld.settle = .stopped))
    ∧ (¬ (u.heldForCarrier = true ∧ u.part = .running) → t.hld = u.hld)
    ∧ (let changed : Prop := old.part.working = true ∧ u.part.working = true
          ∧ (old.part ≠ u.part ∨ old.beacon ≠ u.beacon ∨ ∃ i, u.present i = true
            ∧ ((old.seg i).e ≠ (u.seg i).e ∨ (old.seg i).x ≠ (u.seg i).x ∨ (old.seg i).r ≠ (u.seg i).r
              ∨ (old.seg i).dir ≠ (u.seg i).dir ∨ (u.hasNeighbour i = true ∧ old.reportEntry i ≠ u.reportEntry i)))
       let due : Prop := t.fli.tx.changeWaiting = true ∧ u.part.reporting = true ∧ u.fli.tx.state = .idle
          ∧ u.fli.tx.spacing = .expired
       (t.fli.tx.changeWaiting = true ↔ u.fli.tx.changeWaiting = true ∨ changed)
       ∧ (due → t.fli.tx.state = .waiting ∧ t.fli.tx.pending = some .report ∧ t.fli.tx.attempts = 1)
       ∧ (¬ due → t.fli.tx.state = u.fli.tx.state ∧ t.fli.tx.pending = u.fli.tx.pending
            ∧ t.fli.tx.attempts = u.fli.tx.attempts))
    ∧ ∀ i, let g := old.seg i; let h := u.seg i
        let proves : Prop := old.part.working = true ∧ u.part.working = true ∧ u.present i = true ∧ u.role i ≠ .far
          ∧ (u.arm i).quietProof = true
        let counted : Prop := g.e ≠ h.e ∨ g.x ≠ h.x ∨ g.eN ≠ h.eN ∨ g.xN ≠ h.xN
        (¬ proves → (t.seg i).quiet = h.quiet)
        ∧ (proves → h.unsure = false → (t.seg i).quiet = .stopped)
        ∧ (proves → h.unsure = true → g.unsure = false → (t.seg i).quiet = .running 0)
        ∧ (proves → h.unsure = true → g.unsure = true →
            (h.quiet.isRunning = true → counted → (t.seg i).quiet = .running 0)
            ∧ (h.quiet.isRunning = false ∨ ¬ counted → (t.seg i).quiet = h.quiet))

/-! ## Restarts and reset -/

/-- The commands that end in a restart: every block returns to its restart values with the restart's cause; what stays is
the store (broken off by a restart, written by a completed write), the oscillator's count (begun afresh at power-on, log 4),
the level of RST_N (log 18), the model's clock (log 26) and the queue. -/
def Obligations.RestartsReturnEveryBlock : Prop :=
  ∀ s : State,
    exec .powerOn s = .next (.fresh .powerOn 0 s.scu.storeAfterRestart s.scu.rstHeld s.now s.pending)
    ∧ (s.scu.rstHeld = false →
        exec .rstNAssert s = .next (.fresh .resetPin s.scu.osc s.scu.storeAfterRestart true s.now s.pending)
        ∧ exec .restart s = .next (.fresh .command s.scu.osc s.scu.storeAfterRestart false s.now s.pending)
        ∧ ∀ image, s.scu.writing = some image →
            exec .configWriteComplete s = .next (.fresh .command s.scu.osc (.written image) false s.now s.pending))

/-- The values of every block after a restart, and so at reset. The store never written (log 6), RST_N not asserted (log 18)
and the oscillator's count 0 (log 4) of State.reset are the model's choices; so are the raw levels of the inputs after a
restart (log 5), the stream SDO is said to have carried (log 20), the monitor not watching and the length of no backoff
(log 28). -/
def Obligations.RestartValues : Prop :=
  State.reset = .fresh .powerOn 0 .neverWritten false 0 [] ∧
  ∀ cause osc store rst now pending, let t := State.fresh cause osc store rst now pending
    t.scu.part = .loading ∧ t.scu.cause = cause ∧ t.scu.load = .none ∧ t.scu.onReference = false
    ∧ t.scu.refCount = 0 ∧ t.scu.stages = 0 ∧ t.scu.epoch = 0 ∧ t.scu.cfg = Image.default ∧ t.scu.cfgCrc = none
    ∧ t.scu.listening = .stopped ∧ t.scu.crossingQuiet = .stopped ∧ t.scu.recheck = .stopped
    ∧ t.scu.writing = none ∧ t.scu.store = store ∧ t.scu.osc = osc
    ∧ t.scu.monitor = false ∧ t.scu.rstHeld = rst ∧ t.now = now ∧ t.pending = pending
    ∧ (∀ i, t.queue i = [] ∧ t.aqu.sends.get i = [] ∧ t.aqu.linkTx.get i = none
        ∧ (t.aqu.linkRx.get i).message = none ∧ (t.aqu.linkRx.get i).ended = 0 ∧ t.closed i = false)
    ∧ (∀ k, t.cell k = .unknown) ∧ (∀ i, t.move i = none) ∧ t.xu.unmatched = []
    ∧ (∀ i, t.xu.ent.get i = ⟨⟨false, false, .stopped⟩, .stopped, false⟩
        ∧ t.xu.ext.get i = ⟨⟨false, false, .stopped⟩, .stopped, false⟩)
    ∧ t.xu.box = ⟨⟨false, false, .stopped⟩, .stopped, false⟩
    ∧ t.jar.armOrder = [0, 1, 2, 3] ∧ t.jar.s1 = .priority ∧ t.jar.overdue = none ∧ t.jar.due = false
    ∧ (∀ i, (t.seg i).e = 0 ∧ (t.seg i).x = 0 ∧ (t.seg i).r = 0 ∧ (t.seg i).occ = 0 ∧ (t.seg i).unsure = true
        ∧ (t.seg i).isolated = t.hasNeighbour i ∧ (t.seg i).eN = 0 ∧ (t.seg i).xN = 0 ∧ (t.seg i).rN = 0
        ∧ (t.seg i).demN = 0 ∧ (t.seg i).occN = 0 ∧ (t.seg i).condN = none ∧ (t.seg i).dirN = none
        ∧ (t.seg i).limN = 0 ∧ (t.seg i).limEpN = 0 ∧ (t.seg i).heldLimit = 0 ∧ (t.seg i).heldEpoch = 0
        ∧ (t.seg i).dir = .free ∧ (t.seg i).last = .inbound ∧ (t.seg i).limit = 0 ∧ (t.seg i).limitEpoch = 0
        ∧ (t.seg i).capN = none ∧ (t.seg i).hold = .stopped ∧ (t.seg i).quiet = .stopped ∧ t.heldValid i = false)
    ∧ (∀ i, (t.nbr i).state = .awaited ∧ (t.nbr i).epoch = none ∧ (t.nbr i).base = .none
        ∧ (t.nbr i).silence = 0 ∧ (t.nbr i).late = false ∧ (t.nbr i).mismatch = .none ∧ (t.nbr i).capFlag = false
        ∧ (t.nbr i).node = none ∧ (t.nbr i).entry = none)
    ∧ t.fli.tx.state = .idle ∧ t.fli.tx.pending = none ∧ t.fli.tx.attempts = 0 ∧ t.fli.tx.changeWaiting = false
    ∧ t.fli.tx.periodic = .stopped ∧ t.fli.tx.spacing = .expired ∧ t.fli.tx.lastStart = none
    ∧ t.fli.tx.backoff = .stopped ∧ t.fli.tx.backoffBits = 0 ∧ t.fli.tx.attemptAt = 0 ∧ t.fli.tx.build = []
    ∧ t.fli.tx.lineFault = .stopped ∧ t.fli.tx.faultRaised = false ∧ t.fli.rx.state = .hunt ∧ t.fli.rx.buffer = []
    ∧ t.fli.rx.rest = 0 ∧ t.fli.rx.bits = none ∧ t.fli.rx.pause = 0 ∧ t.fli.rx.rows = 0 ∧ t.fli.rx.good = []
    ∧ t.fli.rx.sentWhole = false
    ∧ t.wkp.stagedP = t.cfg.walkInterval ∧ t.wkp.latchedP = t.cfg.walkInterval
    ∧ t.wkp.stagedW = t.cfg.walkOpen ∧ t.wkp.latchedW = t.cfg.walkOpen
    ∧ t.wkp.state = .closed ∧ t.wkp.request = false ∧ t.wkp.interval = .stopped ∧ t.wkp.clearance = .stopped
    ∧ t.wkp.opening = .stopped ∧ t.wkp.button = ⟨false, false, .stopped⟩
    ∧ t.held = false ∧ t.hld.settle = .stopped
    ∧ t.mtp.flags = 0 ∧ t.mtp.mask = BitVec.allOnes 18 ∧ t.mtp.buffer = .empty ∧ t.mtp.sdo = .none
    ∧ t.mtp.transaction = none ∧ t.mtp.carried = [] ∧ t.attention = false

/-- While RST_N is asserted no command but POWER_ON and RST_N_DEASSERT changes anything; RST_N_DEASSERT ends it. -/
def Obligations.RstNHoldsThePart : Prop :=
  (∀ (c : Instr) (s : State), s.scu.rstHeld = true → c ≠ .powerOn → c ≠ .rstNDeassert → exec c s = .next s)
  ∧ ∀ s : State, exec .rstNDeassert s = .next { s with scu := { s.scu with rstHeld := false } }

/-! ## LOADING -/

/-- The outcome of LOADING: CFG_N low bypasses the store; an image that passes becomes the working configuration, with its
CRC, the segment ends and the walkway times it gives; any other is refused with CONFIG_FAULT. -/
def Obligations.LoadingOutcome : Prop :=
  ∀ s : State, s.scu.rstHeld = false → s.part = .loading →
    exec (.loadingComplete true) s = .next { s with scu := { s.scu with part := .unconfigured, load := .bypassed } }
    ∧ (s.scu.store.load = none →
        exec (.loadingComplete false) s = .next
          { s with scu := { s.scu with part := .unconfigured, load := .refused }
                   mtp := { s.mtp with flags := s.mtp.flags ||| EventKind.configFault.mask } })
    ∧ ∀ c, s.scu.store.load = some c → ∃ t, exec (.loadingComplete false) s = .next t
        ∧ t.scu = { s.scu with
            part := .settling, load := .loaded, cfg := c, cfgCrc := some (Layout.crc16 (Image.body c)), monitor := true }
        ∧ t.wkp = .initial c
        ∧ (∀ i, t.seg i = { SegEnd.initial (t.hasNeighbour i) with dir := (t.fixedDirection i).getD .free })
        ∧ t.aqu = s.aqu ∧ t.closures = s.closures ∧ t.xu = s.xu ∧ t.jar = s.jar ∧ t.nbrs = s.nbrs ∧ t.fli = s.fli
        ∧ t.hld = s.hld ∧ t.mtp = s.mtp

/-- An image that passes LOADING has 184 bytes, the last two the CRC-16 of the others, and fails none of the seven checks of
R14, read at the offsets of R188: the working configuration has each address as written and every other number clamped (R7 to
R12), the codes read by R188, each zone table clamped and truncated (R8), a spur's kind TWO_WAY and an absent arm as in the
default configuration. Every other image is refused. So a configuration that has passed LOADING has its addresses checked, no
two present arms with one neighbour, every one-way kind in agreement with its arm's attributes (R10, R15), every other number
in its range, at least two arms, and no arm's zone table out of order. -/
def Obligations.LoadedConfigurationInRange : Prop :=
  (∀ image : List Byte,
    let one (k : Nat) : Nat := (image.getD k 0).toNat
    let two (k : Nat) : Nat := one k + 256 * one (k + 1)
    let clamped (lo hi x : Nat) : Nat := if x < lo then lo else if hi < x then hi else x
    let flag (i : Arm) (k : Nat) : Bool := (one (50 + 24 * i.val)).testBit k
    let present (i : Arm) : Prop := flag i 0 = true
    let neighbour (i : Arm) : Nat := one (51 + 24 * i.val)
    let kind (i : Arm) : SegKind :=
      if one (52 + 24 * i.val) = 1 then .oneWayUp else if one (52 + 24 * i.val) = 2 then .oneWayDown else .twoWay
    let movement (i j : Arm) : Nat := 146 + 3 * (3 * i.val + if j.val < i.val then j.val else j.val - 1)
    let away (i : Arm) : Prop := neighbour i ≠ 0
      ∧ (kind i = .oneWayUp ∧ one 0 < neighbour i ∨ kind i = .oneWayDown ∧ ¬ one 0 < neighbour i)
    let toward (i : Arm) : Prop := neighbour i ≠ 0
      ∧ (kind i = .oneWayUp ∧ ¬ one 0 < neighbour i ∨ kind i = .oneWayDown ∧ one 0 < neighbour i)
    let passes : Prop := image.length = 184 ∧ image = Layout.withCrc16 (image.take 182)
      ∧ (1 ≤ one 0 ∧ one 0 ≤ 63)
      ∧ (∀ i, present i → neighbour i ≤ 63 ∧ neighbour i ≠ one 0)
      ∧ (∀ i j, i ≠ j → present i → present j → neighbour i = neighbour j → neighbour i = 0)
      ∧ (∃ i j, i ≠ j ∧ present i ∧ present j)
      ∧ (∀ i, present i → (toward i → flag i 1 = true ∧ flag i 2 = false) ∧ (away i → flag i 2 = true ∧ flag i 1 = false))
      ∧ (∀ i j, i ≠ j → one (movement i j) ≠ 0 → present i ∧ present j)
    let zones (i : Arm) : List Zone :=
      let bound (k : Nat) : Nat := clamped 1 65535 (two (58 + 24 * i.val + 2 * k))
      let zone (k : Nat) : Zone := ⟨bound k, clamped 10 400 (two (66 + 24 * i.val + 2 * k))⟩
      [zone 0, zone 1, zone 2, zone 3].take
        (if bound 0 < bound 1 then (if bound 1 < bound 2 then (if bound 2 < bound 3 then 4 else 3) else 2) else 1)
    let interval := clamped 100 1000 (two 32)
    (¬ passes → Image.load image = none)
    ∧ (passes → Image.load image = some
      { nodeAddress := one 0, xlim := clamped 10 400 (two 1), margin := clamped 0 200 (one 3), tLat := clamped 0 1000 (two 4)
        headway := clamped 20 500 (two 6), startWindow := clamped 500 10000 (two 8), clearTime := clamped 1 60 (one 10)
        platoon := clamped 0 7 (one 11), skipMax := clamped 1 15 (one 12), directionHold := clamped 5 300 (two 13)
        crossingProof := one 15 != 0, crossingQuiet := clamped 10 600 (two 16), holdSettle := clamped 500 10000 (two 18)
        debounce := clamped 10 200 (one 20), stuckTime := clamped 2 120 (one 21)
        carrierSilence := clamped 200 2000 (two 22), boxFitted := one 24 != 0
        walkMode := if one 25 = 1 then .cyclic else if one 25 = 2 then .onDemand else .off
        walkInterval := clamped 10 600 (two 26), walkOpen := clamped 0 120 (one 28), walkClearance := clamped 10 300 (two 29)
        bitRate := if one 31 = 1 then .k250 else if one 31 = 2 then .k500 else .k125
        reportInterval := interval, changeSpacing := clamped 20 interval (two 34)
        silenceMultiple := if one 36 = 0 then .x3 else if one 36 = 2 then .x8 else .x5, refStage := clamped 1 5 (one 37)
        classes := .build fun k => ⟨clamped 10 250 (one (38 + 3 * k.val)), clamped 10 400 (two (39 + 3 * k.val))⟩
        arms := .build fun i =>
          if flag i 0 = true then
            { present := true, inbound := flag i 1, outbound := flag i 2, queue := flag i 3, walkway := flag i 4
              quietProof := flag i 5, neighbour := neighbour i, kind := if neighbour i = 0 then .twoWay else kind i
              capacity := clamped 1 15 (one (53 + 24 * i.val)), exitClearance := clamped 0 3000 (two (54 + 24 * i.val))
              quietTime := clamped 10 600 (two (56 + 24 * i.val)), zones := zones i }
          else
            { present := false, inbound := false, outbound := false, queue := false, walkway := false, quietProof := false
              neighbour := 0, kind := .twoWay, capacity := 1, exitClearance := 0, quietTime := 30, zones := [⟨1, 10⟩] }
        paths := .build fun i => .build fun j =>
          if i = j then ⟨false, 100⟩
          else ⟨one (movement i j) != 0, clamped 100 3000 (two (movement i j + 1))⟩ }))
  ∧ ∀ image c, Image.load image = some c →
    (1 ≤ c.nodeAddress ∧ c.nodeAddress ≤ 63) ∧ (10 ≤ c.xlim ∧ c.xlim ≤ 400) ∧ c.margin ≤ 200 ∧ c.tLat ≤ 1000
    ∧ (20 ≤ c.headway ∧ c.headway ≤ 500) ∧ (500 ≤ c.startWindow ∧ c.startWindow ≤ 10000)
    ∧ (1 ≤ c.clearTime ∧ c.clearTime ≤ 60) ∧ c.platoon ≤ 7 ∧ (1 ≤ c.skipMax ∧ c.skipMax ≤ 15)
    ∧ (5 ≤ c.directionHold ∧ c.directionHold ≤ 300) ∧ (10 ≤ c.crossingQuiet ∧ c.crossingQuiet ≤ 600)
    ∧ (500 ≤ c.holdSettle ∧ c.holdSettle ≤ 10000) ∧ (10 ≤ c.debounce ∧ c.debounce ≤ 200)
    ∧ (2 ≤ c.stuckTime ∧ c.stuckTime ≤ 120) ∧ (200 ≤ c.carrierSilence ∧ c.carrierSilence ≤ 2000)
    ∧ (10 ≤ c.walkInterval ∧ c.walkInterval ≤ 600) ∧ c.walkOpen ≤ 120
    ∧ (10 ≤ c.walkClearance ∧ c.walkClearance ≤ 300) ∧ (100 ≤ c.reportInterval ∧ c.reportInterval ≤ 1000)
    ∧ (20 ≤ c.changeSpacing ∧ c.changeSpacing ≤ c.reportInterval) ∧ (1 ≤ c.refStage ∧ c.refStage ≤ 5)
    ∧ (∀ k, 10 ≤ (c.classes.get k).decel ∧ (c.classes.get k).decel ≤ 250
        ∧ 10 ≤ (c.classes.get k).limit ∧ (c.classes.get k).limit ≤ 400)
    ∧ (∀ i, let a := c.arms.get i
        (1 ≤ a.capacity ∧ a.capacity ≤ 15) ∧ a.exitClearance ≤ 3000 ∧ (10 ≤ a.quietTime ∧ a.quietTime ≤ 600)
        ∧ a.neighbour ≤ 63 ∧ (a.present = true → a.neighbour ≠ c.nodeAddress)
        ∧ (1 ≤ a.zones.length ∧ a.zones.length ≤ 4)
        ∧ (∀ z ∈ a.zones, 1 ≤ z.bound ∧ z.bound ≤ 65535 ∧ 10 ≤ z.limit ∧ z.limit ≤ 400)
        ∧ (a.zones.map Zone.bound).Pairwise (· < ·))
    ∧ (∀ i j, i ≠ j → (c.arms.get i).present = true → (c.arms.get j).present = true →
        (c.arms.get i).neighbour = (c.arms.get j).neighbour → (c.arms.get i).neighbour = 0)
    ∧ (∀ i, let a := c.arms.get i
        a.present = true → (a.neighbour = 0 → a.kind = .twoWay)
        ∧ (a.kind = .oneWayUp ∧ c.nodeAddress < a.neighbour ∨ a.kind = .oneWayDown ∧ a.neighbour < c.nodeAddress →
            a.outbound = true ∧ a.inbound = false)
        ∧ (a.kind = .oneWayDown ∧ c.nodeAddress < a.neighbour ∨ a.kind = .oneWayUp ∧ a.neighbour < c.nodeAddress →
            a.inbound = true ∧ a.outbound = false))
    ∧ (∀ i j, 100 ≤ ((c.paths.get i).get j).length ∧ ((c.paths.get i).get j).length ≤ 3000)
    ∧ (∀ i j, i ≠ j → ((c.paths.get i).get j).permitted = true →
        (c.arms.get i).present = true ∧ (c.arms.get j).present = true)
    ∧ 2 ≤ (Image.presentArms c).length

/-- What READ CONFIG returns of a configuration that has passed LOADING is 184 bytes that pass LOADING again and give the
same working configuration. The 184 bytes of any configuration, offset by offset (R188): the junction constants, the classes,
the arms with their flags, codes and zone tables, 0 beyond a table's end, the movements, and the CRC-16 of bytes 0 to 181. -/
def Obligations.WrittenBackConfigurationLoadsTheSame : Prop :=
  (∀ image c, Image.load image = some c →
    (Image.bytes c).length = 184 ∧ Image.load (Image.bytes c) = some c)
  ∧ ∀ c : JunctionConfig,
    let one (k n : Nat) : Prop := (Image.bytes c)[k]? = some (BitVec.ofNat 8 n)
    let two (k n : Nat) : Prop := one k n ∧ one (k + 1) (n / 256)
    let yes (b : Bool) : Nat := if b then 1 else 0
    (Image.bytes c).length = 184 ∧ Image.bytes c = Layout.withCrc16 ((Image.bytes c).take 182)
    ∧ one 0 c.nodeAddress ∧ two 1 c.xlim ∧ one 3 c.margin ∧ two 4 c.tLat ∧ two 6 c.headway ∧ two 8 c.startWindow
    ∧ one 10 c.clearTime ∧ one 11 c.platoon ∧ one 12 c.skipMax ∧ two 13 c.directionHold ∧ one 15 (yes c.crossingProof)
    ∧ two 16 c.crossingQuiet ∧ two 18 c.holdSettle ∧ one 20 c.debounce ∧ one 21 c.stuckTime ∧ two 22 c.carrierSilence
    ∧ one 24 (yes c.boxFitted) ∧ one 25 ([WalkMode.off, .cyclic, .onDemand].idxOf c.walkMode) ∧ two 26 c.walkInterval
    ∧ one 28 c.walkOpen ∧ two 29 c.walkClearance ∧ one 31 ([BitRate.k125, .k250, .k500].idxOf c.bitRate)
    ∧ two 32 c.reportInterval ∧ two 34 c.changeSpacing
    ∧ one 36 ([SilenceMultiple.x3, .x5, .x8].idxOf c.silenceMultiple) ∧ one 37 c.refStage
    ∧ (∀ k : Fin 4, one (38 + 3 * k.val) (c.classes.get k).decel ∧ two (39 + 3 * k.val) (c.classes.get k).limit)
    ∧ (∀ i : Arm, let a := c.arms.get i
      one (50 + 24 * i.val) (yes a.present + 2 * yes a.inbound + 4 * yes a.outbound + 8 * yes a.queue + 16 * yes a.walkway
        + 32 * yes a.quietProof)
      ∧ one (51 + 24 * i.val) a.neighbour ∧ one (52 + 24 * i.val) ([SegKind.twoWay, .oneWayUp, .oneWayDown].idxOf a.kind)
      ∧ one (53 + 24 * i.val) a.capacity ∧ two (54 + 24 * i.val) a.exitClearance ∧ two (56 + 24 * i.val) a.quietTime
      ∧ ∀ k : Fin 4, two (58 + 24 * i.val + 2 * k.val) (a.zones[k.val]?.elim 0 Zone.bound)
        ∧ two (66 + 24 * i.val + 2 * k.val) (a.zones[k.val]?.elim 0 Zone.limit))
    ∧ ∀ (n : Fin 12) (i j : Arm),
      [(0, 1), (0, 2), (0, 3), (1, 0), (1, 2), (1, 3), (2, 0), (2, 1), (2, 3), (3, 0), (3, 1), (3, 2)][n.val]? = some (i, j) →
      one (146 + 3 * n.val) (yes ((c.paths.get i).get j).permitted)
      ∧ two (147 + 3 * n.val) ((c.paths.get i).get j).length

/-! ## The timebase -/

/-- In SETTLING a stage below the required one raises the stages reached and the count with it, and a missing edge returns
both to 0. The required stage switches the timebase, takes the epoch (never 0), and enters LISTENING: the REPORT REQUEST
pending, the receiver afresh, each filter at its raw level without an event, every silence time at 0; a part whose neighbour
records are all LIVE (it has none) passes on into RECOVERING. The five stages stand at 2048, 8192, 16384, 32768 and 65536
reference periods (R167). That the row carries the oscillator's byte (log 4) and the raw levels (log 5) is the model's choice. -/
def Obligations.ReferenceStages : Prop :=
  [1, 2, 3, 4, 5].map stagePeriods = [2048, 8192, 16384, 32768, 65536]
  ∧ ∀ (s : State) (osc : Byte) (raw : RawLevels), s.scu.rstHeld = false → s.part = .settling →
    exec .referenceEdgeMissing s = .next { s with scu := { s.scu with refCount := 0, stages := 0 } }
    ∧ (s.scu.stages + 1 ≠ s.cfg.refStage →
        exec (.referenceStage osc raw) s = .next
          { s with scu := { s.scu with stages := s.scu.stages + 1, refCount := stagePeriods (s.scu.stages + 1) } })
    ∧ (s.scu.stages + 1 = s.cfg.refStage → s.allLive = true →
        ∃ t, exec (.referenceStage osc raw) s = .next t ∧ t.part = .recovering ∧ t.scu.onReference = true
          ∧ t.scu.epoch = (if osc = 0 then 1 else osc) ∧ t.scu.listening = .stopped ∧ t.fli.tx.periodic = .running 0
          ∧ t.fli.tx.changeWaiting = true ∧ t.fli.tx.pending ≠ some .request)
    ∧ (s.scu.stages + 1 = s.cfg.refStage → s.allLive = false →
    ∃ t, exec (.referenceStage osc raw) s = .next t
      ∧ t.scu = { s.scu with
          stages := s.scu.stages + 1, refCount := stagePeriods (s.scu.stages + 1), part := .listening,
          onReference := true, osc := osc, epoch := if osc = 0 then 1 else osc, listening := .running 0,
          crossingQuiet := if s.cfg.crossingProof then .running 0 else .stopped, recheck := .running 0 }
      ∧ t.fli.tx = { s.fli.tx with state := .waiting, pending := some .request, attempts := 1 }
      ∧ t.fli.rx = .initial
      ∧ (∀ i, s.present i = true →
          (t.xu.ent.get i).input = ⟨raw.ent.get i, raw.ent.get i, .stopped⟩
          ∧ (t.xu.ent.get i).stuckTimer.isRunning = raw.ent.get i
          ∧ (t.xu.ext.get i).input = ⟨raw.ext.get i, raw.ext.get i, .stopped⟩
          ∧ (t.xu.ext.get i).stuckTimer.isRunning = raw.ext.get i)
      ∧ (s.cfg.boxFitted = true → t.xu.box.input = ⟨raw.box, raw.box, .stopped⟩)
      ∧ t.wkp.button = ⟨raw.button, raw.button, .stopped⟩
      ∧ (∀ i, (t.nbr i).silence = 0 ∧ (t.nbr i).late = false)
      ∧ (∀ i, (t.seg i).quiet =
          if s.provesQuiet i = true ∧ (s.seg i).unsure = true then .running 0 else (s.seg i).quiet)
      ∧ t.aqu = s.aqu ∧ t.closures = s.closures ∧ t.xu.cells = s.xu.cells ∧ t.xu.moves = s.xu.moves
      ∧ t.xu.unmatched = s.xu.unmatched ∧ t.jar = s.jar ∧ t.hld = s.hld ∧ t.mtp = s.mtp)

/-- The listening window's expiry enters RECOVERING; a REPORT REQUEST still waiting or in backoff is dropped, one in SENDING
goes on, the periodic timer starts, and a change report is scheduled: the FLOOR REPORT falls due at once where the transmitter
is then IDLE and the spacing has elapsed, whether the request was dropped or has been sent before, and waits in the change
waiting flag otherwise (R116, R119, R128). The crossing is resolved at the crossing quiet timer's expiry
when its test holds, and the part enters RUNNING, every UNKNOWN cell FREE; otherwise the timer restarts. The expiries are
taken whenever their timers run (log 2). -/
def Obligations.EntryIntoRecoveringAndRunning : Prop :=
  (∀ s : State, s.scu.rstHeld = false → s.part = .listening → s.scu.listening.isRunning = true →
    Does .listeningWindowExpiry s { s with
      scu := { s.scu with part := .recovering, listening := .stopped }
      fli := { s.fli with tx :=
        if s.fli.tx.pending = some .request ∧ s.fli.tx.state ≠ .sending then
          { s.fli.tx with state := .idle, pending := none, attempts := 0, backoff := .stopped, build := [],
                          periodic := .running 0, changeWaiting := true }
        else { s.fli.tx with periodic := .running 0, changeWaiting := true } } }
    ∧ ∃ t, exec .listeningWindowExpiry s = .next t
      ∧ t.fli.tx.periodic = .running 0 ∧ t.fli.tx.changeWaiting = true ∧ t.fli.tx.spacing = s.fli.tx.spacing
      ∧ (let quiet : Prop := s.fli.tx.state = .idle ∨ (s.fli.tx.pending = some .request ∧ s.fli.tx.state ≠ .sending)
         (quiet → s.fli.tx.spacing = .expired →
            t.fli.tx.state = .waiting ∧ t.fli.tx.pending = some .report ∧ t.fli.tx.attempts = 1)
         ∧ (s.fli.tx.pending = some .request → s.fli.tx.state ≠ .sending → s.fli.tx.spacing ≠ .expired →
            t.fli.tx.state = .idle ∧ t.fli.tx.pending = none ∧ t.fli.tx.attempts = 0)
         ∧ (s.fli.tx.state = .sending ∨ (s.fli.tx.state = .idle ∧ s.fli.tx.pending = none ∧ s.fli.tx.spacing ≠ .expired) →
            t.fli.tx.state = s.fli.tx.state ∧ t.fli.tx.pending = s.fli.tx.pending
              ∧ t.fli.tx.attempts = s.fli.tx.attempts ∧ t.fli.tx.build = s.fli.tx.build)))
  ∧ ∀ s : State, s.scu.rstHeld = false → s.part = .recovering → s.scu.crossingQuiet.isRunning = true →
    (s.xu.unmatched = [] → (s.cfg.boxFitted = true → s.xu.box.level = false) →
      ∃ t, exec .crossingQuietExpiry s = .next t
        ∧ t.scu = { s.scu with part := .running, crossingQuiet := .stopped }
        ∧ (∀ k, t.cell k = if s.cell k = .unknown then .free else s.cell k)
        ∧ t.xu.moves = s.xu.moves ∧ t.xu.unmatched = []
        ∧ (s.held = false → t.jar.due = true)
        ∧ (s.held = false → s.walkWorking = true → t.wkp = { s.wkp with interval := .running 0 })
        ∧ (s.held = true → t.wkp = s.wkp)
        ∧ t.aqu = s.aqu ∧ t.closures = s.closures ∧ t.nbrs = s.nbrs ∧ t.mtp = s.mtp)
    ∧ (s.xu.unmatched ≠ [] ∨ (s.cfg.boxFitted = true ∧ s.xu.box.level = true) →
        Does .crossingQuietExpiry s { s with scu := { s.scu with crossingQuiet := .running 0 } })

/-- CLOCK_LOSS, a mismatch found by the re-check and an address clash enter FAULTED: no cell stays FREE or RESERVED, no
round is due, no designation stands, the settle timer and the walkway's timers are stopped, no segment end admits, every
open limit closes at E_n + R_n, and the hold-cause set is kept. Every grant whose carrier is not committed is withdrawn, the
others stand, and a CLEARANCE falls due for every queued record (R156, steps 3 and 4). A clock loss falls back to the
internal oscillator and ends the watch; a mismatch stops the re-check timer. In FAULTED a further cause raises its own event
and nothing else of this, an address clash by either frame alike. A re-check that agrees only restarts its timer. That the
listening window stops too is the model's inference (log 24); the re-check is taken whenever its timer runs (log 2), and a
frame leaves the model's list of good frames as it is taken (log 8). -/
def Obligations.EntryIntoFaulted : Prop :=
  (∀ s : State, s.scu.rstHeld = false → s.part = .faulted →
    (s.scu.onReference = true → s.scu.monitor = true → Does .clockLoss s { s with
      scu := { s.scu with onReference := false, monitor := false }
      mtp := { s.mtp with flags := s.mtp.flags ||| EventKind.clockLoss.mask } })
    ∧ (s.scu.recheck.isRunning = true → s.scu.cfgCrc ≠ some (Layout.crc16 (Image.body s.cfg)) →
      Does .recheckExpiry s { s with
        scu := { s.scu with recheck := .stopped }
        mtp := { s.mtp with flags := s.mtp.flags ||| EventKind.configFault.mask } })
    ∧ (s.scu.recheck.isRunning = true → s.scu.cfgCrc = some (Layout.crc16 (Image.body s.cfg)) →
      Does .recheckExpiry s { s with scu := { s.scu with recheck := .running 0 } })
    ∧ (∀ f : FloorReport, f.sender.toNat = s.cfg.nodeAddress → Does (.floorReportReceived f false) s { s with
        fli := { s.fli with rx := s.fli.rx.handOver (.report f false) }
        mtp := { s.mtp with flags := s.mtp.flags ||| EventKind.addressClash.mask } })
    ∧ ∀ f : ReportRequest, f.sender.toNat = s.cfg.nodeAddress → Does (.reportRequestReceived f false) s { s with
        fli := { s.fli with rx := s.fli.rx.handOver (.request f false) }
        mtp := { s.mtp with flags := s.mtp.flags ||| EventKind.addressClash.mask } })
  ∧ ∀ s : State, s.scu.rstHeld = false → s.part.working = true → s.part ≠ .faulted →
    (∀ c k, (c = .clockLoss ∧ k = EventKind.clockLoss ∧ s.scu.onReference = true ∧ s.scu.monitor = true)
        ∨ (c = .recheckExpiry ∧ k = .configFault ∧ s.scu.recheck.isRunning = true
            ∧ s.scu.cfgCrc ≠ some (Layout.crc16 (Image.body s.cfg)))
        ∨ (k = .addressClash ∧ ((∃ f, c = .floorReportReceived f false ∧ f.sender.toNat = s.cfg.nodeAddress)
            ∨ ∃ f, c = .reportRequestReceived f false ∧ f.sender.toNat = s.cfg.nodeAddress)) →
      ∃ t, exec c s = .next t ∧ t.part = .faulted ∧ t.flagged k = true
        ∧ (∀ cell, t.cell cell ≠ .free ∧ ∀ id, t.cell cell ≠ .reserved id)
        ∧ (CrossingLaw s → ∀ cell, s.cell cell = .unknown → t.cell cell = .unknown)
        ∧ (∀ i, s.limitOpen i (s.seg i) = true → (t.seg i).limit = (s.seg i).eN + BitVec.ofNat 8 (s.seg i).rN)
        ∧ t.jar.due = false ∧ t.jar.overdue = none ∧ t.hld = { s.hld with settle := .stopped }
        ∧ t.wkp = { s.wkp with state := .closed, interval := .stopped, clearance := .stopped, opening := .stopped }
        ∧ (∀ i, t.admits i = false) ∧ (∀ i, t.goLamp i = false) ∧ t.beacon = true
        ∧ t.scu.listening = .stopped ∧ t.scu.crossingQuiet = .stopped
        ∧ t.scu.onReference = (s.scu.onReference && c != .clockLoss) ∧ t.scu.monitor = (s.scu.monitor && c != .clockLoss)
        ∧ t.scu.recheck = (if c = .recheckExpiry then .stopped else s.scu.recheck)
        ∧ (CrossingLaw s → QueueLaw s → GrantLaw s → GrantsHeld s t)
        ∧ (∀ i, t.aqu.sends.get i = withClearances (s.queue i) (s.aqu.sends.get i))
        ∧ t.scu.epoch = s.scu.epoch ∧ t.cfg = s.cfg ∧ t.closures = s.closures ∧ t.nbrs = s.nbrs)
    ∧ (s.scu.recheck.isRunning = true → s.scu.cfgCrc = some (Layout.crc16 (Image.body s.cfg)) →
        Does .recheckExpiry s { s with scu := { s.scu with recheck := .running 0 } })


/-! ## Arm links -/

/-- The receiver of a link takes the byte of ten bits, the least significant data bit first, and begins a message at the sync
byte while it hunts (R18, R184). A byte goes on with the message until the length of its kind is complete; the whole message
is then judged by its length byte and its CRC-8, and a message that passes gives its fields, which ignore the bits that the
layout ignores (R19, R185). More than 3 byte times of rest behind a byte break a message off. A character without its stop bit
and an unknown kind discard the message (R19); that it ends at that character, and the receiver hunts at once, is the model's
choice (log 39). The row of a message leaves the receiver hunting, unless the receiver has read that message to its end before
and hunts since (log 7). A byte gap and a discarded message change nothing else. A carrier message is discarded without answer
in LOADING, UNCONFIGURED and SETTLING and on the link of an absent arm, and answered NOT_READY in LISTENING and FAULTED; it
changes no record. -/
def Obligations.MessagesByPartState : Prop :=
  (∀ x : LinkReceiver, (x.ended = 0 → x.takeRow = .initial)
    ∧ ∀ n, x.ended = n + 1 → x.takeRow = { x with ended := n })
  ∧ (∀ b : Byte, readCharacter (false :: (List.range 8).map b.getLsbD ++ [true]) = (b, true))
  ∧ (∀ (link : Arm) (b : Byte) (ok : Bool) (bitTimes : Nat) (s : State), s.present link = true →
    let x := s.aqu.linkRx.get link
    let with_ (x : LinkReceiver) : State := { s with aqu := { s.aqu with linkRx := s.aqu.linkRx.set link x } }
    let ends (c : Instr) : State := { with_ { message := none, ended := x.ended + 1 } with pending := s.pending ++ [c] }
    (x.message = none → s.linkCharacter link b ok =
      (if ok = true ∧ b = 0xC3 then with_ { x with message := some [b] } else s) ∧ s.linkRest link bitTimes = s)
    ∧ (x.message ≠ none →
      (ok = false → s.linkCharacter link b ok = ends (.armLinkMessageDiscard link))
      ∧ s.linkRest link bitTimes = if 30 < bitTimes then ends (.armLinkByteGap link) else s)
    ∧ ∀ l, x.message = some l → l ≠ [] → ok = true →
      let whole := l ++ [b]
      let goesOn (length : Nat) : Prop :=
        s.linkCharacter link b ok =
          if whole.length < length then with_ { x with message := some whole } else ends (judgeMessage link whole)
      (whole[1]? = some 0x11 → goesOn 13) ∧ (whole[1]? = some 0x12 → goesOn 10) ∧ (whole[1]? = some 0x13 → goesOn 6)
      ∧ (whole[1]? ≠ some 0x11 → whole[1]? ≠ some 0x12 → whole[1]? ≠ some 0x13 →
          s.linkCharacter link b ok = ends (.armLinkMessageDiscard link)))
  ∧ (∀ (link : Arm) (id length d v : Half) (flags : Byte),
    let sealed (body : List Byte) : List Byte := 0xC3 :: body ++ [Layout.crc8 body]
    let two (x : Half) : List Byte := [x.setWidth 8, (x >>> 8).setWidth 8]
    judgeMessage link (sealed ([0x11, 13] ++ two id ++ [flags] ++ two length ++ two d ++ two v)) =
      .announce link (id.setWidth 12) (Fin.ofNat 4 (flags.toNat % 4)) (flags.getLsbD 2) (Fin.ofNat 4 (flags.toNat / 16 % 4))
        length d v
    ∧ judgeMessage link (sealed ([0x12, 10] ++ two id ++ two d ++ two v)) = .position link (id.setWidth 12) d v
    ∧ judgeMessage link (sealed ([0x13, 6] ++ two id)) = .withdraw link (id.setWidth 12))
  ∧ (∀ (link : Arm) (l : List Byte),
    (∀ body, l = 0xC3 :: body ++ [Layout.crc8 body] → body[1]? ≠ some (BitVec.ofNat 8 l.length)) →
    6 ≤ l.length → l.length ≤ 13 → judgeMessage link l = .armLinkMessageDiscard link)
  ∧ ∀ (link : Arm) (id : CarrierId) (s : State), s.scu.rstHeld = false →
    let hunting : State := s.heardOn link (s.aqu.sends.get link)
    exec (.armLinkByteGap link) s = .next hunting ∧ exec (.armLinkMessageDiscard link) s = .next hunting
    ∧ ∀ c, (c = .withdraw link id ∨ (∃ d v, c = .position link id d v)
        ∨ ∃ cls p exit len d v, c = .announce link id cls p exit len d v) →
      (s.part.working = false ∨ s.present link = false → Does c s hunting)
      ∧ (s.present link = true → s.part = .listening ∨ s.part = .faulted →
          Does c s (s.heardOn link (withDue (.refusal id .notReady) (s.aqu.sends.get link))))

/-- An ANNOUNCE of an ID that its link's queue does not hold is refused for the first reason that applies, and a refusal
changes no record. -/
def Obligations.AnnounceRefusals : Prop :=
  ∀ (link : Arm) (id : CarrierId) (cls : Fin 4) (p : Bool) (exit : Arm) (length d v : Half) (s : State),
    s.scu.rstHeld = false → s.part = .recovering ∨ s.part = .running → s.present link = true →
    (∀ c ∈ s.queue link, c.id ≠ id) →
    ∀ reason, announceReason s link id exit length = some reason →
      Does (.announce link id cls p exit length d v) s
        (s.heardOn link (withDue (.refusal id reason) (s.aqu.sends.get link)))

/-- An ANNOUNCE that no test refuses creates a WAITING record with the message's fields, inserts it in its queue, raises the
demand toward its exit by one (up to 15), and makes a CLEARANCE due; with no overrun to find, and no designation in front of
which it goes, nothing else of a queue, of the crossing or of the hold changes. The place of the record (R24): behind the leading records
that are GRANTED or at a distance less than or equal to its own, and in front of the first that is neither; the others keep
their order. -/
def Obligations.AnnounceInserts : Prop :=
  (∀ (c : Carrier) (q : List Carrier), ∃ front behind, q = front ++ behind ∧ insertRecord c q = front ++ c :: behind
    ∧ (∀ x ∈ front, x.state = .granted ∨ x.distance ≤ c.distance)
    ∧ ∀ x, behind.head? = some x → x.state ≠ .granted ∧ c.distance < x.distance)
  ∧ ∀ (link : Arm) (id : CarrierId) (cls : Fin 4) (p : Bool) (exit : Arm) (length d v : Half) (s : State),
    s.scu.rstHeld = false → s.part = .recovering ∨ s.part = .running → s.present link = true →
    (∀ c ∈ s.queue link, c.id ≠ id) → announceReason s link id exit length = none → QueueLaw s →
    let inserted := insertRecord
      { id := id, arrival := link, cls := cls, priority := p, exit := exit, length := max 50 length.toNat,
        distance := d.toNat, speed := min 400 v.toNat, silence := 0, state := .waiting, silent := false,
        skip := 0, overdue := false } (s.queue link)
    let behind : Prop := inserted.head? = s.head link
    (∀ o, s.jar.overdue = some o → o.arrival = link → behind) →
    s.part = .recovering ∨ committed s.cfg cls d.toNat (min 400 v.toNat) = false ∨ behind →
    ∃ t, exec (.announce link id cls p exit length d v) s = .next t
      ∧ t.queue link = inserted
      ∧ (∀ i, i ≠ link → t.queue i = s.queue i)
      ∧ t.demand exit = min 15 (s.demand exit + 1) ∧ (∀ j, j ≠ exit → t.demand j = s.demand j)
      ∧ t.aqu.sends = s.aqu.sends.set link (withClearance id (s.aqu.sends.get link))
      ∧ t.scu = s.scu ∧ t.closures = s.closures ∧ t.xu = s.xu ∧ t.nbrs = s.nbrs ∧ t.wkp = s.wkp ∧ t.mtp = s.mtp
      ∧ SameCauses s t

/-- A re-announce: the message's fields are stored in the record, the skip count kept when the exit is the same, the silent
flag cleared, the state WAITING without a grant and kept with one, the place kept; a CLEARANCE falls due, and with no overrun
to find and no designation for it nothing else of a queue, of the crossing or of the hold changes. A length above 400 or an
exit without a route is refused and changes nothing. Another exit under a grant is refused with COMMITTED to a carrier that is
committed, whose distance and speed are stored; otherwise the grant is withdrawn and the record is WAITING with skip count 0. -/
def Obligations.ReannounceOfQueuedCarrier : Prop :=
  ∀ (link : Arm) (id : CarrierId) (cls : Fin 4) (p : Bool) (exit : Arm) (length d v : Half) (c : Carrier) (s : State),
    s.scu.rstHeld = false → s.part = .recovering ∨ s.part = .running → s.present link = true →
    s.recordOn link id = some c →
    let noRoute : Prop := exit = link ∨ s.outbound exit = false ∨ (s.path link exit).permitted = false
    let refused (reason : RefusalReason) := Does (.announce link id cls p exit length d v) s
      (s.heardOn link (withDue (.refusal id reason) (s.aqu.sends.get link)))
    (400 < length.toNat → refused .badField)
    ∧ (length.toNat ≤ 400 → noRoute → refused .noRoute)
    ∧ (length.toNat ≤ 400 → ¬ noRoute → (c.state = .granted → c.exit = exit) → DesignationSpares s link id →
      c.state = .granted ∨ s.part = .recovering ∨ (s.head link).map Carrier.id ≠ some id
        ∨ committed s.cfg cls d.toNat (min 400 v.toNat) = false →
      ∃ t, exec (.announce link id cls p exit length d v) s = .next t
        ∧ t.recordOn link id = some { c with
            cls := cls, priority := p, exit := exit, length := max 50 length.toNat, distance := d.toNat,
            speed := min 400 v.toNat, skip := if c.exit = exit then c.skip else 0, silent := false, silence := 0,
            state := if c.state = .granted then .granted else .waiting }
        ∧ (t.queue link).map Carrier.id = (s.queue link).map Carrier.id
        ∧ (∀ r ∈ s.queue link, r.id ≠ id → r ∈ t.queue link) ∧ (∀ j, j ≠ link → t.queue j = s.queue j)
        ∧ t.aqu.sends = s.aqu.sends.set link (withClearance id (s.aqu.sends.get link))
        ∧ t.scu = s.scu ∧ t.closures = s.closures ∧ t.xu = s.xu ∧ t.nbrs = s.nbrs ∧ t.wkp = s.wkp ∧ t.mtp = s.mtp
        ∧ SameCauses s t)
    ∧ (length.toNat ≤ 400 → ¬ noRoute → c.state = .granted → c.exit ≠ exit → DesignationSpares s link id →
      (committed s.cfg c.cls d.toNat (min 400 v.toNat) = true →
        ∃ t, exec (.announce link id cls p exit length d v) s = .next t
          ∧ t.recordOn link id = some { c with
              distance := d.toNat, speed := min 400 v.toNat, silent := false, silence := 0 }
          ∧ t.aqu.sends = s.aqu.sends.set link
              (withClearance id (withDue (.refusal id .committed) (s.aqu.sends.get link)))
          ∧ t.xu = s.xu ∧ t.scu = s.scu ∧ t.closures = s.closures ∧ t.nbrs = s.nbrs ∧ t.wkp = s.wkp ∧ SameCauses s t)
      ∧ (committed s.cfg c.cls d.toNat (min 400 v.toNat) = false →
        s.part = .recovering ∨ (s.head link).map Carrier.id ≠ some id
          ∨ committed s.cfg cls d.toNat (min 400 v.toNat) = false →
        ∃ t, exec (.announce link id cls p exit length d v) s = .next t
          ∧ t.recordOn link id = some { c with
              cls := cls, priority := p, exit := exit, length := max 50 length.toNat, distance := d.toNat,
              speed := min 400 v.toNat, skip := 0, silent := false, silence := 0, state := .waiting }
          ∧ (∀ k m, s.grantOf id = some k → s.move k = some m →
              let rest := m.carriers.filter fun e => !e.grantedTo id
              t.move k = (if rest = [] then none else some { m with carriers := rest })
              ∧ (t.seg m.exit).r = (s.seg m.exit).r - 1)
          ∧ t.aqu.sends = s.aqu.sends.set link (withClearance id (s.aqu.sends.get link))
          ∧ t.scu = s.scu ∧ t.closures = s.closures ∧ t.nbrs = s.nbrs ∧ SameCauses s t))

/-- A POSITION of a queued carrier: distance and speed are stored, the silent flag is cleared, the silence time returns to 0,
the record is WAITING without a grant and stays GRANTED with one, and keeps its place, and a CLEARANCE falls due on the link
of arrival; with no overrun to find, no deferred lapse to take and no designation for it, nothing else of a queue, of
the crossing or of the hold changes. A deferred lapse whose carrier the POSITION shows not committed is taken at once (R69,
R68): its entry leaves the carrier list, the reservation is released, the record is LAPSED, GRANT_LAPSE is raised, and a
further CLEARANCE falls due on its arm. -/
def Obligations.PositionOfQueuedCarrier : Prop :=
  (∀ (link i : Arm) (id : CarrierId) (d v : Half) (c : Carrier) (m : Movement) (s : State),
    s.scu.rstHeld = false → s.part = .recovering ∨ s.part = .running → s.present link = true →
    s.queuedOn id = some i → s.recordOn i id = some c → DesignationSpares s i id → c.state = .granted →
    s.grantOf id = some i → s.move i = some m → s.lapseDeferred id = true →
    committed s.cfg c.cls d.toNat (min 400 v.toNat) = false →
    ∃ t, exec (.position link id d v) s = .next t ∧ t.flagged .grantLapse = true
      ∧ t.recordOn i id = some { c with
          distance := d.toNat, speed := min 400 v.toNat, silent := false, silence := 0, state := .lapsed }
      ∧ t.move i = (let rest := m.carriers.filter fun e => !e.grantedTo id
          if rest = [] then none else some { m with carriers := rest })
      ∧ (t.seg m.exit).r = (s.seg m.exit).r - 1
      ∧ (let sent := s.aqu.sends.set link (withClearance id (s.aqu.sends.get link))
         t.aqu.sends = sent.set i (withClearance id (sent.get i)))
      ∧ (∀ j, j ≠ i → t.queue j = s.queue j ∧ t.move j = s.move j) ∧ t.xu.unmatched = s.xu.unmatched
      ∧ t.scu = s.scu ∧ t.closures = s.closures ∧ t.nbrs = s.nbrs ∧ SameCauses s t)
  ∧ ∀ (link i : Arm) (id : CarrierId) (d v : Half) (c : Carrier) (s : State),
    s.scu.rstHeld = false → s.part = .recovering ∨ s.part = .running → s.present link = true →
    s.queuedOn id = some i → s.recordOn i id = some c → DesignationSpares s i id →
    (c.state = .granted ∧ s.lapseDeferred id = false)
        ∨ (s.part = .recovering ∧ s.lapseDeferred id = false)
        ∨ ((s.head i).map Carrier.id ≠ some id ∧ s.lapseDeferred id = false)
        ∨ (c.state ≠ .granted ∧ s.lapseDeferred id = false ∧ committed s.cfg c.cls d.toNat (min 400 v.toNat) = false)
        ∨ (c.state = .granted ∧ committed s.cfg c.cls d.toNat (min 400 v.toNat) = true) →
    ∃ t, exec (.position link id d v) s = .next t
      ∧ t.recordOn i id = some { c with
          distance := d.toNat, speed := min 400 v.toNat, silent := false, silence := 0,
          state := if c.state = .granted then .granted else .waiting }
      ∧ (t.queue i).map Carrier.id = (s.queue i).map Carrier.id
      ∧ (∀ r ∈ s.queue i, r.id ≠ id → r ∈ t.queue i) ∧ (∀ j, j ≠ i → t.queue j = s.queue j)
      ∧ t.aqu.sends = s.aqu.sends.set link (withClearance id (s.aqu.sends.get link))
      ∧ t.scu = s.scu ∧ t.closures = s.closures ∧ t.xu = s.xu ∧ t.nbrs = s.nbrs ∧ t.wkp = s.wkp ∧ t.mtp = s.mtp
      ∧ SameCauses s t

/-- The overrun check (R153 to R155): a head without a grant that is found committed in RUNNING is rescued when every
condition of R154 passes (its grant, with a movement record marked as rescued, and RESCUE; a designation for it ends), and is
otherwise an OVERRUN: the event is raised and the junction held for a carrier, no cell staying FREE or RESERVED where it was
not held for a carrier before. Where it was not held at all, hold entry ends the designation and the round due, withdraws
the grants of carriers that are not committed and no other, and makes a CLEARANCE due for every queued record (R156). The
check does nothing in any other state. It is made by an ANNOUNCE on its new record, by an accepted re-announce and by one that
withdraws the grant on the record as updated (R27 to R29), and by a POSITION (R30). -/
def Obligations.RescueOrOverrun : Prop :=
  (∀ (s : State) (i : Arm) (id : CarrierId),
    let t := s.overrunCheck i id
    ((∀ c, s.head i = some c → c.id ≠ id ∨ c.state = .granted ∨ c.committed s.cfg = false) ∨ s.part ≠ .running → t = s)
    ∧ ∀ c, s.head i = some c → c.id = id → c.arrival = i → c.state ≠ .granted → s.part = .running →
      c.committed s.cfg = true →
      let rescue : Prop := s.held = false ∧ s.inbound i = true ∧ s.outbound c.exit = true
        ∧ (i ≠ c.exit ∧ (s.path i c.exit).permitted = true)
        ∧ (∀ k ∈ cellSet i c.exit, s.cell k = .free ∨ s.cell k = .reserved id)
        ∧ (s.wkp.state = .opened → s.walkArm i = false ∧ s.walkArm c.exit = false) ∧ s.admits c.exit = true
      (rescue → t = (s.executeGrant c true).raise .rescue)
      ∧ (¬ rescue → t.flagged .overrun = true ∧ t.hld.overrun = true ∧ t.granting = false
        ∧ t.hld.unauthorised = s.hld.unauthorised ∧ t.hld.operator = s.hld.operator ∧ t.xu.unmatched = s.xu.unmatched
        ∧ (∀ j, (t.queue j).map Carrier.id = (s.queue j).map Carrier.id)
        ∧ (CrossingLaw s → s.heldForCarrier = false → ∀ k, t.cell k ≠ .free ∧ ∀ id', t.cell k ≠ .reserved id')
        ∧ (s.held = false → t.jar.overdue = none ∧ t.jar.due = false ∧ t.wkp.state = .closed
            ∧ (CrossingLaw s → QueueLaw s → GrantLaw s → GrantsHeld s t)
            ∧ ∀ j, t.aqu.sends.get j = withClearances (s.queue j) (s.aqu.sends.get j))))
  ∧ (∀ (link : Arm) (id : CarrierId) (cls : Fin 4) (p : Bool) (exit : Arm) (length d v : Half) (s : State),
    s.scu.rstHeld = false → s.part = .recovering ∨ s.part = .running → s.present link = true → QueueLaw s →
    let new : Carrier :=
      { id := id, arrival := link, cls := cls, priority := p, exit := exit, length := max 50 length.toNat,
        distance := d.toNat, speed := min 400 v.toNat, silence := 0, state := .waiting, silent := false, skip := 0,
        overdue := false }
    let checked (u : State) : Prop := Does (.announce link id cls p exit length d v) s (u.overrunCheck link id)
      ∧ (∀ j, j ≠ link → u.queue j = s.queue j) ∧ u.aqu.sends = s.aqu.sends.set link (withClearance id (s.aqu.sends.get link))
      ∧ u.scu = s.scu ∧ u.closures = s.closures ∧ u.hld = s.hld ∧ u.xu.unmatched = s.xu.unmatched
    ((∀ r ∈ s.queue link, r.id ≠ id) → announceReason s link id exit length = none →
      ∃ u, checked u ∧ u.recordOn link id = some new ∧ u.xu.moves = s.xu.moves ∧ u.wkp = s.wkp
        ∧ (u.queue link).map Carrier.id = (insertRecord new (s.queue link)).map Carrier.id)
    ∧ ∀ c, s.recordOn link id = some c → length.toNat ≤ 400 → exit ≠ link → s.outbound exit = true →
      (s.path link exit).permitted = true →
      (c.state ≠ .granted ∨ c.exit = exit →
        ∃ u r, checked u ∧ u.recordOn link id = some r ∧ (u.queue link).map Carrier.id = (s.queue link).map Carrier.id
          ∧ u.xu.moves = s.xu.moves ∧ u.wkp = s.wkp
          ∧ r = { new with
              skip := r.skip, overdue := r.overdue, state := if c.state = .granted then .granted else .waiting })
      ∧ (c.state = .granted → c.exit ≠ exit → committed s.cfg c.cls d.toNat (min 400 v.toNat) = false →
        ∃ u r, checked u ∧ u.recordOn link id = some r ∧ (u.queue link).map Carrier.id = (s.queue link).map Carrier.id
          ∧ r = { new with overdue := r.overdue }))
  ∧ ∀ (link i : Arm) (id : CarrierId) (d v : Half) (c : Carrier) (s : State),
    s.scu.rstHeld = false → s.part = .running → s.present link = true → s.queuedOn id = some i → s.head i = some c →
    c.id = id → c.arrival = i → c.state ≠ .granted → s.grantOf id = none → QueueLaw s →
    committed s.cfg c.cls d.toNat (min 400 v.toNat) = true →
    let rescue : Prop := s.held = false ∧ s.move i = none ∧ s.inbound i = true ∧ s.outbound c.exit = true
      ∧ (i ≠ c.exit ∧ (s.path i c.exit).permitted = true)
      ∧ (∀ k ∈ cellSet i c.exit, s.cell k = .free ∨ s.cell k = .reserved id)
      ∧ (s.wkp.state = .opened → s.walkArm i = false ∧ s.walkArm c.exit = false) ∧ s.admits c.exit = true
    (rescue → ∃ t, exec (.position link id d v) s = .next t ∧ t.flagged .rescue = true
        ∧ t.move i = some ⟨c.exit, [{ id := id, cls := c.cls, status := .granted (.running 0) false }], 0, true⟩
        ∧ (∀ j, j ≠ i → t.move j = s.move j)
        ∧ (∀ k, t.cell k = if k ∈ cellSet i c.exit then .held i
            else if (∃ o ∈ s.jar.overdue, o.id = id ∧ o.arrival = i) ∧ s.cell k = .reserved id then .free else s.cell k)
        ∧ (t.recordOn i id).map Carrier.state = some .granted ∧ (t.seg c.exit).r = min 15 ((s.seg c.exit).r + 1)
        ∧ SameCauses s t ∧ t.flagged .overrun = s.flagged .overrun)
    ∧ (CrossingLaw s → ¬ rescue →
        ∃ t, exec (.position link id d v) s = .next t ∧ t.flagged .overrun = true
        ∧ t.hld.overrun = true ∧ t.beacon = true ∧ t.granting = false ∧ t.flagged .rescue = s.flagged .rescue
        ∧ t.hld.unauthorised = s.hld.unauthorised ∧ t.hld.operator = s.hld.operator
        ∧ (s.heldForCarrier = false → ∀ k, t.cell k ≠ .free ∧ ∀ id', t.cell k ≠ .reserved id')
        ∧ (s.held = false → t.jar.overdue = none ∧ t.jar.due = false ∧ t.wkp.state = .closed
            ∧ (GrantLaw s → GrantsHeld s t)
            ∧ ∀ j, t.aqu.sends.get j = withClearances (s.queue j)
                (if j = link then withClearance id (s.aqu.sends.get j) else s.aqu.sends.get j))
        ∧ t.xu.unmatched = s.xu.unmatched ∧ t.scu = s.scu ∧ t.closures = s.closures ∧ t.nbrs = s.nbrs)

/-- A POSITION and a WITHDRAW of a carrier that no queue holds: a CLEARANCE and a REFUSAL with COMMITTED for a carrier in the
box, a REFUSAL with UNKNOWN for both otherwise; no record changes. That an unmatched entry with ID 0 is nobody's, a
WITHDRAW's with ID 0 included, is the model's inference (log 22). -/
def Obligations.MessagesOfUnqueuedCarriers : Prop :=
  ∀ (link : Arm) (id : CarrierId) (d v : Half) (s : State),
    s.scu.rstHeld = false → s.part = .recovering ∨ s.part = .running → s.present link = true →
    (∀ i, ∀ c ∈ s.queue i, c.id ≠ id) →
    let with_ (l : List SendItem) : State := s.heardOn link l
    let l := s.aqu.sends.get link
    (inBox s id → Does (.position link id d v) s (with_ (withClearance id l))
      ∧ Does (.withdraw link id) s (with_ (withDue (.refusal id .committed) l)))
    ∧ (¬ inBox s id → Does (.position link id d v) s (with_ (withDue (.refusal id .unknown) l))
      ∧ Does (.withdraw link id) s (with_ (withDue (.refusal id .unknown) l)))

/-- WITHDRAW, and PURGE CARRIER with OK: the record leaves its queue, the others keep their order, and no unsent CLEARANCE
for it stays on any link. Without a grant nothing of the crossing, of the hold or of another queue changes; with one, the
GRANTED entry leaves its carrier list, the record ends with its cells released when the list is empty, and the reservation is
released, the consistency test following (R93, R96), at a far end too by the model's inference (log 12). A designation
stands, if at all, for another carrier. PURGE CARRIER is refused with BAD_ARGUMENT for an ID of 0, above 4095, or not queued.
-/
def Obligations.WithdrawAndPurge : Prop :=
  ∀ (link i : Arm) (id : CarrierId) (s : State), s.scu.rstHeld = false →
    (s.queuedOn id = some i → DesignationSpares s i id →
      ∀ c, (c = .withdraw link id ∧ s.present link = true ∧ (s.part = .recovering ∨ s.part = .running))
          ∨ (c = .purgeCarrier (id.setWidth 16) ∧ id ≠ 0 ∧ s.part.working = true) →
        ∃ t, exec c s = .next t
          ∧ t.queue i = (s.queue i).filter (fun r => r.id != id) ∧ (∀ j, j ≠ i → t.queue j = s.queue j)
          ∧ (∀ j, t.aqu.sends.get j = (s.aqu.sends.get j).filter (fun it => it != .clearance id))
          ∧ (s.grantOf id = none → t.xu = s.xu ∧ t.wkp = s.wkp ∧ t.mtp.flags = s.mtp.flags)
          ∧ (∀ k m, s.grantOf id = some k → s.move k = some m →
              let rest := m.carriers.filter fun e => !e.grantedTo id
              t.move k = (if rest = [] then none else some { m with carriers := rest })
              ∧ (∀ j, j ≠ k → t.move j = s.move j) ∧ Released m.exit s t
              ∧ (rest ≠ [] → t.xu.cells = s.xu.cells)
              ∧ (rest = [] → ∀ l, t.cell l = if l ∈ cellSet k m.exit then s.releasedCell l else s.cell l))
          ∧ t.scu = s.scu ∧ t.closures = s.closures ∧ t.xu.unmatched = s.xu.unmatched ∧ t.nbrs = s.nbrs ∧ SameCauses s t
          ∧ (c = .purgeCarrier (id.setWidth 16) → t.mtp.buffer = .busy (.ok 0x15)))
    ∧ ∀ big : Half, s.part.working = true →
        big = 0 ∨ 4095 < big.toNat ∨ s.queuedOn (big.setWidth 12) = none →
        Does (.purgeCarrier big) s (s.answered (.refused 0x15 .badArgument))

/-- The item at the front of a send list is taken: a REFUSAL goes out as it stands; a CLEARANCE is built from the carrier as
it is held now, and is dropped when the carrier is not held. An empty list sends nothing. What a CLEARANCE carries (R37): for
a queued record its place, GO only with a grant, and the authority and ceiling of its distance, speed, class, movement and
leader; for a CROSSING carrier GO and place 0; for a carrier of the unmatched list HOLD with 0 everywhere; nothing for a
carrier that is not held. The bytes of both messages (R185), their levels on ALiTX, each character with its start bit, 8 data
bits from the least significant and its stop bit (R18, R184), and the CRC-8 behind them: initial value 0xFF, generator
x⁸+x²+x+1, each byte most significant bit first, over the bytes from the kind byte on (R184). -/
def Obligations.SendItemsAndClearanceContents : Prop :=
  (∀ (id : CarrierId) (go : Bool) (place auth ceiling : Nat) (reason : RefusalReason),
    let sealed (body : List Byte) : List Byte := 0xC3 :: body ++ [Layout.crc8 body]
    let low (n : Nat) : Byte := BitVec.ofNat 8 n
    (LinkMessage.clearance id go place auth ceiling).bytes =
      sealed [0x21, 11, low id.toNat, low (id.toNat / 256), low ((if go = true then 1 else 0) + 16 * place), low auth,
        low (auth / 256), low ceiling, low (ceiling / 256)]
    ∧ (LinkMessage.refusal id reason).bytes =
      sealed [0x22, 7, low id.toNat, low (id.toNat / 256), low (1 + [RefusalReason.armClosed, .noRoute, .duplicate, .armFull,
        .unknown, .notReady, .committed, .badField].idxOf reason)])
  ∧ (∀ m : LinkMessage, m.levels = m.bytes.flatMap fun b =>
    [false, b.getLsbD 0, b.getLsbD 1, b.getLsbD 2, b.getLsbD 3, b.getLsbD 4, b.getLsbD 5, b.getLsbD 6, b.getLsbD 7, true])
  ∧ (∀ (l : List Byte) (b : Byte),
    let next (c : Byte) : Byte := if c.getMsbD 0 = true then (c <<< 1) ^^^ 0x07 else c <<< 1
    Layout.crc8 [] = 0xFF ∧ Layout.crc8 (l ++ [b]) = (List.range 8).foldl (fun c _ => next c) (Layout.crc8 l ^^^ b))
  ∧ (∀ (link : Arm) (id : CarrierId) (reason : RefusalReason) (rest : List SendItem) (s : State), s.scu.rstHeld = false →
    (s.aqu.sends.get link = .refusal id reason :: rest →
      exec (.sendRefusal link) s = .next { s with aqu := { s.aqu with
        sends := s.aqu.sends.set link rest, linkTx := s.aqu.linkTx.set link (some (.refusal id reason)) } })
    ∧ (s.aqu.sends.get link = .clearance id :: rest →
      exec (.sendClearance link) s = .next { s with aqu := { s.aqu with
        sends := s.aqu.sends.set link rest
        linkTx := (s.buildClearance id).elim s.aqu.linkTx fun m => s.aqu.linkTx.set link (some m) } })
    ∧ (s.aqu.sends.get link = [] → exec (.sendRefusal link) s = .next s ∧ exec (.sendClearance link) s = .next s))
  ∧ ∀ (id : CarrierId) (s : State),
    (∀ i front c behind, s.queuedOn id = some i → s.queue i = front ++ c :: behind → c.id = id →
      (∀ r ∈ front, r.id ≠ id) →
      s.buildClearance id = some (.clearance id (c.state == .granted) (front.length + 1)
        (queuedClearance s.cfg c front.getLast?).1 (queuedClearance s.cfg c front.getLast?).2))
    ∧ (∀ i m e, (∀ j, ∀ c ∈ s.queue j, c.id ≠ id) → s.crossingOf id = some i → s.move i = some m →
      m.carriers.find? (fun e => e.id == id && e.isCrossing) = some e →
      s.buildClearance id = some (.clearance id true 0
        (crossingClearance s.cfg e.cls i m.exit).1 (crossingClearance s.cfg e.cls i m.exit).2))
    ∧ ((∀ j, ∀ c ∈ s.queue j, c.id ≠ id) → s.crossingOf id = none →
      s.buildClearance id =
        if id ≠ 0 ∧ ∃ u ∈ s.xu.unmatched, u.id = id then some (.clearance id false 0 0 0) else none)

/-- CARRIER_MUTE: a record that is not silent gets its silent flag, WAITING and LAPSED become MUTE, GRANTED stays, and the
event is raised; a record that is silent raises nothing more. A designation stands, if at all, for another carrier. The expiry
is taken whatever the silence time (log 2). -/
def Obligations.CarrierMute : Prop :=
  ∀ (id : CarrierId) (i : Arm) (c : Carrier) (s : State), s.scu.rstHeld = false → DesignationSpares s i id →
    s.queuedOn id = some i → s.recordOn i id = some c →
    (c.silent = true → Does (.carrierMute id) s s)
    ∧ (c.silent = false → ∃ t, exec (.carrierMute id) s = .next t
        ∧ t.recordOn i id = some { c with
            silent := true, silence := max c.silence s.cfg.carrierSilence,
            state := if c.state = .granted then .granted else .mute }
        ∧ (t.queue i).map Carrier.id = (s.queue i).map Carrier.id ∧ (∀ j, j ≠ i → t.queue j = s.queue j)
        ∧ t.mtp = { s.mtp with flags := s.mtp.flags ||| EventKind.carrierMute.mask }
        ∧ t.aqu.sends = s.aqu.sends ∧ t.xu = s.xu ∧ t.scu = s.scu ∧ t.closures = s.closures ∧ t.wkp = s.wkp)

/-! ## Authority and ceilings -/

/-- Authority and ceiling (R40 to R47). The authority of a queued record is its own limit (the distance, with a grant also
path length and exit clearance), or the leader limit where that is smaller, clamped into 0 to 65535. Its ceiling is the least
of 400 cm/s, the class speed limit, the limit of its zone, the zone term of each zone below, with a grant the crossing term,
and the stopping term. A CROSSING carrier has the path length and the exit clearance, the class and box limits and the
stopping term. The zone of a distance is the lowest one whose boundary lies beyond it, or the last (R8). So a CLEARANCE to a
carrier without a grant never carries an authority greater than its distance, and a ceiling is 0 with an authority of 0. -/
def Obligations.AuthorityAndCeiling : Prop :=
  (∀ (zones : List Zone) (d : Nat), zones ≠ [] → let z := zoneIndex zones d
    z < zones.length ∧ (∀ k b, k < z → zones[k]? = some b → b.bound ≤ d)
    ∧ ∀ b, z + 1 < zones.length → zones[z]? = some b → d < b.bound)
  ∧ (∀ (c : JunctionConfig) (r : Carrier) (leader : Option Carrier), let out := queuedClearance c r leader
    let a := (c.classes.get r.cls).decel
    let lat := r.speed * c.tLat / 1000
    let own := r.distance + if r.state = .granted then
      ((c.paths.get r.arrival).get r.exit).length + (c.arms.get r.exit).exitClearance else 0
    let zones := (c.arms.get r.arrival).zones
    (leader = none → out.1 = min 65535 own)
    ∧ (∀ l, leader = some l → (out.1 : Int) =
        min 65535 (max 0 (min (own : Int) ((r.distance : Int) - (l.distance + l.length + c.headway)))))
    ∧ ∀ v, v ≤ out.2 ↔
      v ≤ 400 ∧ v ≤ (c.classes.get r.cls).limit ∧ v ≤ zoneLimit zones (zoneIndex zones r.distance)
      ∧ (∀ k z, k < zoneIndex zones r.distance → zones[k]? = some z →
          v ≤ isqrt (z.limit * z.limit + 2 * a * (r.distance - z.bound - lat)))
      ∧ (r.state = .granted → v ≤ isqrt (c.xlim * c.xlim + 2 * a * (r.distance - lat)))
      ∧ v ≤ isqrt (2 * a * (out.1 - c.margin - lat)))
  ∧ (∀ (c : JunctionConfig) (cls : Fin 4) (i j : Arm), let out := crossingClearance c cls i j
    out.1 = min 65535 (((c.paths.get i).get j).length + (c.arms.get j).exitClearance)
    ∧ ∀ v, v ≤ out.2 ↔ v ≤ 400 ∧ v ≤ (c.classes.get cls).limit ∧ v ≤ c.xlim
      ∧ v ≤ isqrt (2 * (c.classes.get cls).decel * (out.1 - c.margin - c.xlim * c.tLat / 1000)))
  ∧ (∀ (c : JunctionConfig) (r : Carrier) (leader : Option Carrier), let out := queuedClearance c r leader
    let zones := (c.arms.get r.arrival).zones
    (r.state ≠ .granted → out.1 ≤ r.distance) ∧ out.1 ≤ 65535
    ∧ out.2 ≤ 400 ∧ out.2 ≤ (c.classes.get r.cls).limit ∧ out.2 ≤ zoneLimit zones (zoneIndex zones r.distance)
    ∧ (out.1 = 0 → out.2 = 0))
  ∧ ∀ (c : JunctionConfig) (cls : Fin 4) (i j : Arm), let out := crossingClearance c cls i j
    out.2 ≤ 400 ∧ out.2 ≤ (c.classes.get cls).limit ∧ out.2 ≤ c.xlim ∧ (out.1 = 0 → out.2 = 0)

/-- isqrt is exact for every argument (R48); and a carrier at distance d with speed v is committed (R49) exactly when v is
greater than isqrt(2·a·max(0, d − m − lat)), that is, when v² exceeds the product. -/
def Obligations.IsqrtAndCommitmentTest : Prop :=
  (∀ n : Nat, isqrt n * isqrt n ≤ n ∧ n < (isqrt n + 1) * (isqrt n + 1))
  ∧ ∀ (c : JunctionConfig) (cls : Fin 4) (d v : Nat),
    committed c cls d v = true ↔ 2 * (c.classes.get cls).decel * (d - c.margin - v * c.tLat / 1000) < v * v

/-! ## The crossing -/

/-- Grant execution (R57, R58). When a condition fails nothing changes. A grant that creates a record puts the carrier's
GRANTED entry in it and holds every cell of the set; a follow-on grant adds the entry at the end and leaves the cells; both
reserve a place at the exit under its consistency test (R93, R96; at a far end too by the model's inference, log 12), set the
record GRANTED with a skip count of 0, and make a CLEARANCE due. A grant to the overdue carrier ends its designation (R85).
The follow-on opportunity of a movement record is tested by R86 and R87: the head is granted into it exactly when every
condition holds, and skip counts and designation follow; otherwise nothing changes. -/
def Obligations.GrantAndFollowOn : Prop :=
  (∀ (s : State) (i : Arm) (m : Movement) (h : Carrier), s.move i = some m → s.head i = some h →
    let allowed : Prop :=
      ((∃ front e, m.carriers = front ++ [e] ∧ e.isCrossing = true) ∧ m.followOns < s.cfg.platoon
        ∧ m.carriers.length < 1 + s.cfg.platoon)
      ∧ h.state = .waiting ∧ h.exit = m.exit ∧ s.inbound i = true ∧ s.outbound m.exit = true
      ∧ (∀ o, s.jar.overdue = some o →
          o.id = h.id ∨ ∀ k, ¬ (k ∈ cellSet o.arrival o.exit ∧ k ∈ cellSet i m.exit))
      ∧ (s.wkp.state = .closed ∨ s.walkArm i = false ∧ s.walkArm m.exit = false)
      ∧ s.admits m.exit = true ∧ s.part = .running ∧ s.held = false
    (allowed → s.followOnTest i = (s.executeFollowOn h).afterGrant h.id) ∧ (¬ allowed → s.followOnTest i = s))
  ∧ (∀ (s : State) (i : Arm), s.move i = none ∨ s.head i = none → s.followOnTest i = s)
  ∧ (∀ (s : State) (c : Carrier) (o : Overdue) (rescue : Bool), QueueLaw s → s.jar.overdue = some o → o.id = c.id →
      o.arrival = c.arrival → s.recordOn c.arrival c.id = some c → s.grantExecutable c = true →
      (s.executeGrant c rescue).jar.overdue = none
      ∧ ∀ k ∈ cellSet c.arrival c.exit, (s.executeGrant c rescue).cell k = .held c.arrival)
  ∧ ∀ (s : State) (c : Carrier) (rescue : Bool),
    (s.grantExecutable c = false → s.executeGrant c rescue = s)
    ∧ (∀ m, s.move c.arrival = some m → s.followOnExecutable c m = false → s.executeFollowOn c = s)
    ∧ (DesignationSpares s c.arrival c.id → s.recordOn c.arrival c.id = some c →
        let entry : Entry := { id := c.id, cls := c.cls, status := .granted (.running 0) false }
        let granted (t : State) : Prop :=
          (t.seg c.exit).r = min 15 ((s.seg c.exit).r + 1)
          ∧ ViewTested c.exit (s.seg c.exit).occ (min 15 ((s.seg c.exit).r + 1)) s t
          ∧ t.recordOn c.arrival c.id = some { c with state := .granted, skip := 0 }
          ∧ t.aqu.sends = s.aqu.sends.set c.arrival (withClearance c.id (s.aqu.sends.get c.arrival))
          ∧ t.goLamp c.arrival = true ∧ t.xu.unmatched = s.xu.unmatched ∧ t.scu = s.scu ∧ t.closures = s.closures
          ∧ t.hld = s.hld ∧ t.wkp = s.wkp
        (s.grantExecutable c = true → let t := s.executeGrant c rescue
          granted t
          ∧ (∀ i, t.move i = if i = c.arrival then some ⟨c.exit, [entry], 0, rescue⟩ else s.move i)
          ∧ ∀ k, t.cell k = if k ∈ cellSet c.arrival c.exit then .held c.arrival else s.cell k)
        ∧ (∀ m, s.move c.arrival = some m → s.followOnExecutable c m = true → let t := s.executeFollowOn c
          granted t
          ∧ (∀ i, t.move i = if i = c.arrival then
                some { m with carriers := m.carriers ++ [entry], followOns := m.followOns + 1 } else s.move i)
          ∧ ∀ k, t.cell k = s.cell k))

/-- A round that is due takes three stages, each on what the one before has left (R76): a designation whose exit does not
admit ends (R84); the follow-on opportunities are tested in arm order; and the first eligible candidate is granted, the
switches turn away from it (R81), and skip counts and designation follow. So a round with no record in force and no
designation grants the first eligible candidate: the new record, its cells, the switches, and a further round due; and one
that finds none eligible changes no switch and no record. Whatever stands, a round creates at most one movement record, and
one that is not due does nothing. -/
def Obligations.RoundGrantsTheFirstEligible : Prop :=
  (∀ s : State, s.scu.rstHeld = false → s.jar.due = true → s.granting = true →
    let admitted := State.testOverdueExit { s with jar := { s.jar with due := false } }
    Does .arbitrationRound s (admitted.jar.armOrder.foldl State.followOnTest admitted).grantCandidate)
  ∧ (∀ s : State,
    (s.jar.overdue = none → s.testOverdueExit = s)
    ∧ (∀ o, s.jar.overdue = some o → s.testOverdueExit = if s.admits o.exit then s else s.endOverdue)
    ∧ (s.candidates.find? s.eligible = none → s.grantCandidate = s)
    ∧ ∀ c, s.candidates.find? s.eligible = some c →
      let u := s.executeGrant c false
      s.grantCandidate = State.afterGrant c.id { u with jar := { u.jar with
        s1 := if c.priority then .normal else .priority
        s2 := if c.arrival = 0 ∨ c.arrival = 1 then .arms23 else .arms01
        s3 := if c.arrival = 0 then .upper else if c.arrival = 1 then .lower else u.jar.s3
        s4 := if c.arrival = 2 then .upper else if c.arrival = 3 then .lower else u.jar.s4 } })
  ∧ (∀ s : State, ∃ t, exec .arbitrationRound s = .next t
    ∧ (∀ i j, s.move i = none → t.move i ≠ none → s.move j = none → t.move j ≠ none → i = j)
    ∧ (s.jar.due = false → t.xu = s.xu ∧ t.aqu = s.aqu))
  ∧ ∀ s : State, s.scu.rstHeld = false → s.jar.due = true → s.granting = true → s.jar.overdue = none →
    (∀ i, s.move i = none) →
    (∀ c, s.candidates.find? s.eligible = some c →
      ∃ t, exec .arbitrationRound s = .next t
        ∧ (∀ i, t.move i = if i = c.arrival then
              some ⟨c.exit, [{ id := c.id, cls := c.cls, status := .granted (.running 0) false }], 0, false⟩
            else none)
        ∧ (∀ k ∈ cellSet c.arrival c.exit, t.cell k = .held c.arrival)
        ∧ t.jar.s1 = (if c.priority then .normal else .priority)
        ∧ t.jar.s2 = (if c.arrival = 0 ∨ c.arrival = 1 then .arms23 else .arms01)
        ∧ t.jar.s3 = (if c.arrival = 0 then .upper else if c.arrival = 1 then .lower else s.jar.s3)
        ∧ t.jar.s4 = (if c.arrival = 2 then .upper else if c.arrival = 3 then .lower else s.jar.s4)
        ∧ t.jar.due = true ∧ t.scu = s.scu ∧ t.closures = s.closures ∧ t.xu.unmatched = s.xu.unmatched
        ∧ t.nbrs = s.nbrs ∧ t.wkp = s.wkp)
    ∧ (s.candidates.find? s.eligible = none →
        Does .arbitrationRound s { s with jar := { s.jar with due := false } })

/-- The arm order by the switches S2, S3 and S4, and after a restart (R79). -/
def Obligations.ArmOrderTable : Prop :=
  (∀ cause osc store rst now pending, (State.fresh cause osc store rst now pending).jar.armOrder = [0, 1, 2, 3])
  ∧ ∀ j : Jar,
    (j.s2 = .arms01 → j.s3 = .lower → j.s4 = .lower → j.armOrder = [0, 1, 2, 3])
    ∧ (j.s2 = .arms01 → j.s3 = .lower → j.s4 = .upper → j.armOrder = [0, 1, 3, 2])
    ∧ (j.s2 = .arms01 → j.s3 = .upper → j.s4 = .lower → j.armOrder = [1, 0, 2, 3])
    ∧ (j.s2 = .arms01 → j.s3 = .upper → j.s4 = .upper → j.armOrder = [1, 0, 3, 2])
    ∧ (j.s2 = .arms23 → j.s3 = .lower → j.s4 = .lower → j.armOrder = [2, 3, 0, 1])
    ∧ (j.s2 = .arms23 → j.s3 = .lower → j.s4 = .upper → j.armOrder = [3, 2, 0, 1])
    ∧ (j.s2 = .arms23 → j.s3 = .upper → j.s4 = .lower → j.armOrder = [2, 3, 1, 0])
    ∧ (j.s2 = .arms23 → j.s3 = .upper → j.s4 = .upper → j.armOrder = [3, 2, 1, 0])

/-- What the arbiter reads. The cell set of a movement (R6): cell k is in the set of (i, j) exactly when k is reached from i,
counter-clockwise, before j is; so it has (j − i) mod 4 cells, and is the same whatever the configuration. A head is eligible
when the six conditions of R77 hold, and waits on the crossing when the four that are not about cells and walkway do (R78).
The candidates (R80): the overdue carrier, then the heads of the layer S1 points to, then those of the other layer, each in
arm order. -/
def Obligations.CellSetsEligibilityAndCandidates : Prop :=
  (∀ i j k : Arm, (k ∈ cellSet i j ↔ (k - i).val < (j - i).val) ∧ (cellSet i j).length = (j - i).val)
  ∧ (∀ (s : State) (i : Arm),
    (s.inbound i = true ↔ s.present i = true ∧ (s.arm i).inbound = true ∧ s.closures.get i = ⟨false, false⟩)
    ∧ (s.outbound i = true ↔ s.present i = true ∧ (s.arm i).outbound = true ∧ s.closures.get i = ⟨false, false⟩))
  ∧ (∀ (s : State) (c : Carrier),
    let routed : Prop := c.state = .waiting ∧ s.inbound c.arrival = true ∧ s.outbound c.exit = true
      ∧ (c.arrival ≠ c.exit ∧ ((s.cfg.paths.get c.arrival).get c.exit).permitted = true) ∧ s.admits c.exit = true
    (s.waitsOnCrossing c = true ↔ routed)
    ∧ (s.eligible c = true ↔ routed
      ∧ (∀ k ∈ cellSet c.arrival c.exit, s.cell k = .free ∨ s.cell k = .reserved c.id)
      ∧ (s.wkp.state = .closed ∨ s.walkArm c.arrival = false ∧ s.walkArm c.exit = false)))
  ∧ ∀ s : State,
    let heads := s.jar.armOrder.filterMap s.head
    let overdue (c : Carrier) : Bool := decide (∃ o ∈ s.jar.overdue, o.id = c.id)
    let favoured (c : Carrier) : Bool := c.priority == (s.jar.s1 == .priority)
    s.candidates = heads.filter overdue ++ heads.filter (fun c => !overdue c && favoured c)
      ++ heads.filter fun c => !overdue c && !favoured c

/-- Skip counts and the overdue designation (R53, R82, R83, R85). After a grant the skip count of every other head that waits
on the crossing rises by 1, up to K; then, when no designation stands, the first head in arm order at K that waits on the
crossing is designated: its overdue flag is set, the FREE cells of its set become RESERVED for it, and a round is due. The
end of a designation clears the flag and the skip count and frees the cells RESERVED for it, which makes a round due where
there are any. It ends when its carrier is withdrawn, purged, becomes MUTE or asks for another exit, and when a new record
is inserted in front. CARRIER_MUTE is taken before the silence time has run out too (log 2). -/
def Obligations.SkipCountsAndDesignation : Prop :=
  (∀ (s : State) (id : CarrierId), (∀ i, ((s.queue i).map Carrier.id).Nodup) →
    let rise (i : Arm) : List Carrier := match s.queue i with
      | [] => []
      | h :: rest =>
        (if h.id ≠ id ∧ s.waitsOnCrossing h = true then { h with skip := min s.cfg.skipMax (h.skip + 1) } else h) :: rest
    s.afterGrant id = State.trigger (State.seekOverdue { s with aqu := { s.aqu with queues := .build rise } }))
  ∧ (∀ s : State,
    let found := (s.jar.armOrder.filterMap s.head).find? fun h => h.skip == s.cfg.skipMax && s.waitsOnCrossing h
    (s.jar.overdue ≠ none ∨ found = none → s.seekOverdue = s)
    ∧ ∀ c, s.jar.overdue = none → found = some c →
      let marked := (s.queue c.arrival).map fun r => if r.id = c.id then { r with overdue := true } else r
      s.seekOverdue = { s with
        jar := { s.jar with overdue := some ⟨c.id, c.arrival, c.exit⟩, due := s.jar.due || s.granting }
        aqu := { s.aqu with queues := s.aqu.queues.set c.arrival marked }
        xu := { s.xu with
          cells := .build fun k =>
            if k ∈ cellSet c.arrival c.exit ∧ s.cell k = .free then .reserved c.id else s.cell k } })
  ∧ (∀ (s : State) (o : Overdue), s.jar.overdue = some o →
    let unmarked := (s.queue o.arrival).map fun r => if r.id = o.id then { r with overdue := false, skip := 0 } else r
    s.endOverdue = { s with
      jar := { s.jar with
        overdue := none, due := s.jar.due || (s.granting && Arm.list.any fun k => s.cell k == .reserved o.id) }
      aqu := { s.aqu with queues := s.aqu.queues.set o.arrival unmarked }
      xu := { s.xu with cells := .build fun k => if s.cell k = .reserved o.id then .free else s.cell k } })
  ∧ ∀ (s : State) (o : Overdue) (h : Carrier) (c : Instr), s.scu.rstHeld = false → QueueLaw s → GrantLaw s →
    s.jar.overdue = some o → s.head o.arrival = some h → s.part = .recovering ∨ s.part = .running →
    (c = .purgeCarrier (o.id.setWidth 16) ∧ o.id ≠ 0
      ∨ c = .carrierMute o.id ∧ h.silent = false
      ∨ (∃ link, c = .withdraw link o.id ∧ s.present link = true)
      ∨ (∃ id cls p exit length d v, c = .announce o.arrival id cls p exit length d v ∧ s.present o.arrival = true
          ∧ committed s.cfg cls d.toNat (min 400 v.toNat) = false
          ∧ (id = o.id ∧ exit ≠ o.exit ∧ length.toNat ≤ 400 ∧ exit ≠ o.arrival ∧ s.outbound exit = true
              ∧ (s.path o.arrival exit).permitted = true
            ∨ (∀ r ∈ s.queue o.arrival, r.id ≠ id) ∧ announceReason s o.arrival id exit length = none
              ∧ d.toNat < h.distance))) →
    ∃ t, exec c s = .next t ∧ t.jar.overdue = none
      ∧ (∀ k, t.cell k = if s.cell k = .reserved o.id then .free else s.cell k)
      ∧ (∀ r ∈ t.queue o.arrival, r.id = o.id → r.overdue = false ∧ r.skip = 0)
      ∧ (s.granting = true → (∃ k, s.cell k = .reserved o.id) → t.jar.due = true)
      ∧ t.xu.moves = s.xu.moves ∧ t.scu = s.scu ∧ t.closures = s.closures

/-! ## Detectors and timers of the crossing -/

/-- An entry activation matched to a grant (R63): the oldest GRANTED entry becomes CROSSING with its clear timer started and
the class of its record, the record leaves the queue, which makes a round due where it was the head, X rises by 1, the
occupancy view falls by 1 under the consistency test (R92, R96), and neither a cell nor any other entry changes; a
designation for another carrier stands on. Then, in RUNNING with no hold, the follow-on opportunity of the record is tested
(R86). That a round is due also where the head leaves its queue empty is the model's inference (log 10), and that the entry
of a carrier without a record keeps its class is its choice (log 25). -/
def Obligations.MatchedEntry : Prop :=
  ∀ (i : Arm) (m : Movement) (front back : List Entry) (e : Entry) (start : Timer) (deferred : Bool) (s : State),
    s.scu.rstHeld = false → s.part = .running ∨ s.part = .faulted → s.present i = true →
    (s.xu.ent.get i).level = false → QueueLaw s → (∀ o, s.jar.overdue = some o → o.id ≠ e.id) →
    s.move i = some m → m.carriers = front ++ e :: back → (∀ x ∈ front, x.status.isGranted = false) →
    e.status = .granted start deferred →
    ∃ u, Does (.detectorFilterChange (.ent i)) s (if s.granting = true then u.followOnTest i else u)
      ∧ (∀ j, u.move j = if j = i then some { m with carriers := front
            ++ { e with cls := ((s.recordOn i e.id).map Carrier.cls).getD e.cls, status := .crossing (.running 0) false }
              :: back } else s.move j)
      ∧ u.queue i = (s.queue i).filter (fun r => r.id != e.id) ∧ (∀ j, j ≠ i → u.queue j = s.queue j)
      ∧ u.aqu.sends = s.aqu.sends ∧ u.aqu.linkTx = s.aqu.linkTx ∧ u.aqu.linkRx = s.aqu.linkRx
      ∧ (u.seg i).x = (s.seg i).x + 1 ∧ (u.seg i).e = (s.seg i).e ∧ (u.seg i).r = (s.seg i).r
      ∧ ViewTested i ((s.seg i).occ - 1) (s.seg i).r s u
      ∧ (∀ j, j ≠ i → (u.seg j).x = (s.seg j).x ∧ (u.seg j).e = (s.seg j).e ∧ (u.seg j).r = (s.seg j).r
          ∧ (u.seg j).occ = (s.seg j).occ ∧ (u.seg j).unsure = (s.seg j).unsure)
      ∧ (∀ k, k ≠ .countInconsistent → u.flagged k = s.flagged k)
      ∧ u.xu.ent.get i = { s.xu.ent.get i with input := ⟨true, true, .stopped⟩, stuckTimer := .running 0 }
      ∧ (∀ j, j ≠ i → u.xu.ent.get j = s.xu.ent.get j) ∧ u.xu.ext = s.xu.ext ∧ u.xu.box = s.xu.box
      ∧ u.xu.cells = s.xu.cells ∧ u.xu.unmatched = s.xu.unmatched ∧ u.closures = s.closures
      ∧ u.jar = { s.jar with due := u.jar.due }
      ∧ (∀ h, s.granting = true → s.head i = some h → h.id = e.id → u.jar.due = true)
      ∧ u.scu = { s.scu with
          crossingQuiet := if s.scu.crossingQuiet.isRunning = true then .running 0 else s.scu.crossingQuiet }
      ∧ u.nbrs = s.nbrs ∧ u.fli = s.fli ∧ u.wkp = s.wkp ∧ u.hld = s.hld

/-- An entry activation that matches no grant (R64): the head, if any, leaves its queue and its ID and exit join the
unmatched list while that has a free place, X rises by 1, the occupancy view falls by 1 under the consistency test (R92, R96),
and UNAUTHORISED_ENTRY is raised; a designation for the head ends
(R85), and one for another arm's head stands on unless the junction comes to be held. In RUNNING the junction is held for
it, and when it was not held for a carrier before, no cell stays FREE or RESERVED. Where it was not held at all, hold entry
ends the designation and the round due, withdraws the grants of carriers that are not committed and no other, and makes a
CLEARANCE due for every record that is still queued (R156). -/
def Obligations.UnmatchedEntry : Prop :=
  ∀ (i : Arm) (s : State), s.scu.rstHeld = false → s.part.working = true → s.present i = true →
    (s.xu.ent.get i).level = false →
    s.part = .listening ∨ s.part = .recovering ∨ (∀ m, s.move i = some m → ∀ e ∈ m.carriers, e.status.isGranted = false) →
    ∃ t, exec (.detectorFilterChange (.ent i)) s = .next t ∧ t.flagged .unauthorisedEntry = true
      ∧ (t.queue i).map Carrier.id = (s.queue i).tail.map Carrier.id
      ∧ t.xu.unmatched = (if s.xu.unmatched.length < 4 then s.xu.unmatched ++
            [{ id := ((s.head i).map Carrier.id).getD 0, arrival := some i, exit := (s.head i).map Carrier.exit,
               source := .entry }] else s.xu.unmatched)
      ∧ (t.seg i).x = (s.seg i).x + 1 ∧ (t.seg i).e = (s.seg i).e
      ∧ (let view : Int := (s.seg i).occ - 1
         let fails := s.viewFails i view (s.seg i).r
         (t.seg i).occ = min view.toNat 15 ∧ ((t.seg i).unsure = true ↔ (s.seg i).unsure = true ∨ fails)
         ∧ (fails → t.flagged .countInconsistent = true)
         ∧ (s.part ≠ .running ∨ s.held = true → ViewTested i view (s.seg i).r s t))
      ∧ (QueueLaw s → GrantLaw s → ∀ o, s.jar.overdue = some o →
          (o.arrival = i → t.jar.overdue = none)
          ∧ (o.arrival ≠ i → s.part ≠ .running ∨ s.held = true → t.jar.overdue = some o))
      ∧ (s.part = .running → t.hld.unauthorised = true ∧ t.beacon = true)
      ∧ (s.part = .running → s.heldForCarrier = false → ∀ k, t.cell k ≠ .free ∧ ∀ id, t.cell k ≠ .reserved id)
      ∧ (s.part = .running → s.held = false → t.jar.overdue = none ∧ t.jar.due = false ∧ t.wkp.state = .closed
          ∧ (CrossingLaw s → QueueLaw s → GrantLaw s → GrantsHeld s t)
          ∧ ∀ j, t.aqu.sends.get j =
              withClearances (if j = i then (s.queue j).tail else s.queue j) (s.aqu.sends.get j))
      ∧ (s.part ≠ .running → t.hld.unauthorised = s.hld.unauthorised)
      ∧ (s.part ≠ .running ∨ s.held = true → t.aqu.sends = s.aqu.sends ∧ t.xu.moves = s.xu.moves)
      ∧ t.hld.overrun = s.hld.overrun ∧ t.hld.operator = s.hld.operator
      ∧ t.closures = s.closures ∧ t.nbrs = s.nbrs ∧ t.part = s.part

/-- An exit release (R66, R67). Matched to the oldest CROSSING entry of the movement with that exit: the entry leaves its
list, and the record stays while another does; else matched to the oldest unmatched entry that can leave there; else a
phantom exit. Each counts E once, the occupancy view rising by 1 under the consistency test (R92, R96), and only the first
consumes a reservation, before the test (R93). A record's end leaves each of its cells EMERGENCY under a hold for a carrier or
in FAULTED, else RESERVED where the overdue carrier needs it, else FREE (R52), and makes a round due (R75). The OPEN test is
made at a record's end and at the departure from the unmatched list (R145), and not in a hold or outside RUNNING, by the
model's inference (log 11). -/
def Obligations.ExitRelease : Prop :=
  (∀ (s : State) (k : Arm), s.releasedCell k =
    if s.hld.overrun = true ∨ s.hld.unauthorised = true ∨ s.part = .faulted then .emergency
    else match s.jar.overdue with
      | some o => if k ∈ cellSet o.arrival o.exit then .reserved o.id else .free
      | none => .free)
  ∧ ∀ (j : Arm) (s : State), s.scu.rstHeld = false → s.part.working = true → s.present j = true →
    (s.xu.ext.get j).level = true →
    ∃ t, exec (.detectorFilterChange (.ext j)) s = .next t ∧ (t.seg j).e = (s.seg j).e + 1 ∧ (t.seg j).x = (s.seg j).x
      ∧ (t.xu.ext.get j).level = false ∧ (t.xu.ext.get j).stuck = false
      ∧ ViewTested j ((s.seg j).occ + 1) (if s.exitMove j = none then (s.seg j).r else (s.seg j).r - 1) s t
      ∧ (∀ i m front e back, s.exitMove j = some i → s.move i = some m → m.carriers = front ++ e :: back →
          (∀ x ∈ front, x.isCrossing = false) → e.isCrossing = true →
          (t.seg j).r = (s.seg j).r - 1 ∧ t.xu.unmatched = s.xu.unmatched
          ∧ (t.flagged .phantomExit = s.flagged .phantomExit)
          ∧ t.move i = (if front ++ back = [] then none else some { m with carriers := front ++ back })
          ∧ (∀ i', i' ≠ i → t.move i' = s.move i')
          ∧ (front ++ back ≠ [] → t.xu.cells = s.xu.cells ∧ t.wkp = s.wkp)
          ∧ (front ++ back = [] → (∀ k, t.cell k = if k ∈ cellSet i j then s.releasedCell k else s.cell k)
              ∧ (s.granting = true → t.jar.due = true) ∧ WalkTested (s.walkOpens s.xu.unmatched (some i)) s t))
      ∧ (s.exitMove j = none → (t.seg j).r = (s.seg j).r ∧ t.xu.moves = s.xu.moves ∧ t.xu.cells = s.xu.cells
          ∧ (∀ front u back, s.xu.unmatched = front ++ u :: back →
              (∀ x ∈ front, x.exit ≠ some j ∧ x.exit ≠ none) → (u.exit = some j ∨ u.exit = none) →
              t.xu.unmatched = front ++ back ∧ t.flagged .phantomExit = s.flagged .phantomExit
              ∧ WalkTested (s.walkOpens (front ++ back) none) s t)
          ∧ ((∀ x ∈ s.xu.unmatched, x.exit ≠ some j ∧ x.exit ≠ none) →
              t.xu.unmatched = s.xu.unmatched ∧ t.flagged .phantomExit = true ∧ t.wkp = s.wkp))
      ∧ t.aqu.queues = s.aqu.queues ∧ t.closures = s.closures ∧ t.nbrs = s.nbrs ∧ t.part = s.part

/-- The other changes of a filtered level: the activation of the box sensor is an unauthorised occupation when every cell is
FREE, and nothing otherwise (R72); its release, an entry detector's release and an exit detector's activation are only
detector events. A press of the button asks for the walkway in ON_DEMAND while it is CLOSED, in RECOVERING and RUNNING, and
reaches the latch point at once where the interval has expired (R143, R144); any other press, and its release, do nothing.
No filter runs before LISTENING. The raw level of an input starts the debounce time where it leaves the filtered level and
stops it where it returns, and the level changes when the debounce time has passed (R61). Model's choices: the part takes
this of itself when no command and no other event waits (log 1); a raw level is told by senseInput, which is no row, and
DETECTOR_FILTER_CHANGE as a command is the change of the level, whatever the debounce timer shows (log 2, log 5). -/
def Obligations.BoxButtonAndQuietEdges : Prop :=
  (∀ (s : State) (input : Input) (raw : Bool), let d := s.debounce input; let t := s.senseInput input raw
    (s.runsFilter input = false → t = s)
    ∧ (s.runsFilter input = true → (∀ k, k ≠ input → t.debounce k = s.debounce k)
        ∧ t.debounce input =
          if raw = d.raw then d else ⟨d.level, raw, if raw = d.level then .stopped else .running 0⟩)
    ∧ (s.filterTurns input = true ↔
        s.runsFilter input = true ∧ ∃ n, d.timer = .running n ∧ s.cfg.debounce ≤ n)
    ∧ (s.scu.rstHeld = false → s.pending = [] → (∀ c ∈ s.owedNow, c = none) → s.filterTurns input = true →
        ∃ first, s.filterTurns first = true ∧ step s = exec (.detectorFilterChange first) s))
  ∧ ∀ s : State, s.scu.rstHeld = false →
    (∀ input, s.part.working = false → Does (.detectorFilterChange input) s s)
    ∧ (s.part.working = true → s.cfg.boxFitted = true → s.xu.box.level = false → (∃ k, s.cell k ≠ .free) →
        Does (.detectorFilterChange .box) s
          ({ s with xu := { s.xu with
            box := ⟨⟨true, true, .stopped⟩, .running 0, s.xu.box.stuck⟩ } }).detectorEvent)
    ∧ (s.part.working = true → s.cfg.boxFitted = true → s.xu.box.level = true →
        Does (.detectorFilterChange .box) s
          ({ s with xu := { s.xu with box := ⟨⟨false, false, .stopped⟩, .stopped, false⟩ } }).detectorEvent)
    ∧ (s.part.working = true → s.cfg.boxFitted = true → s.xu.box.level = false → (∀ k, s.cell k = .free) →
        ∃ t, exec (.detectorFilterChange .box) s = .next t ∧ t.flagged .unauthorisedEntry = true
          ∧ t.xu.unmatched = (if s.xu.unmatched.length < 4 then
              s.xu.unmatched ++ [{ id := 0, arrival := none, exit := none, source := .box }] else s.xu.unmatched)
          ∧ (s.part = .running → t.hld.unauthorised = true) ∧ (∀ i, (t.queue i).map Carrier.id = (s.queue i).map Carrier.id)
          ∧ ∀ i, (t.seg i).e = (s.seg i).e ∧ (t.seg i).x = (s.seg i).x)
    ∧ (∀ i, s.part.working = true → s.present i = true → (s.xu.ent.get i).level = true →
        Does (.detectorFilterChange (.ent i)) s
          ({ s with xu := { s.xu with
            ent := s.xu.ent.set i ⟨⟨false, false, .stopped⟩, .stopped, false⟩ } }).detectorEvent)
    ∧ (∀ j, s.part.working = true → s.present j = true → (s.xu.ext.get j).level = false →
        Does (.detectorFilterChange (.ext j)) s
          ({ s with xu := { s.xu with
            ext := s.xu.ext.set j ⟨⟨true, true, .stopped⟩, .running 0, (s.xu.ext.get j).stuck⟩ } }).detectorEvent)
    ∧ (s.part.working = true → s.wkp.button.level = false →
      let pressed : Wkp := { s.wkp with button := ⟨true, true, .stopped⟩ }
      let taken : Prop := s.walkWorking = true ∧ s.cfg.walkMode = .onDemand ∧ (s.part = .recovering ∨ s.part = .running)
        ∧ s.wkp.state = .closed ∧ s.wkp.request = false
      (taken → s.wkp.interval ≠ .expired →
          Does (.detectorFilterChange .button) s { s with wkp := { pressed with request := true } })
      ∧ (taken → s.wkp.interval = .expired → s.granting = true →
          Does (.detectorFilterChange .button) s { s with
            wkp := Wkp.latched s.walkwayClear { pressed with request := true }
            jar := { s.jar with due := s.jar.due || (s.walkwayClear && 0 < s.wkp.stagedW) } })
      ∧ (¬ taken → Does (.detectorFilterChange .button) s { s with wkp := pressed }))
    ∧ (s.part.working = true → s.wkp.button.level = true →
        Does (.detectorFilterChange .button) s { s with wkp := { s.wkp with button := ⟨false, false, .stopped⟩ } })

/-- The stuck timer of a detector reaching the stuck time sets its stuck flag, raises DETECTOR_FAULT and adds DETECTOR to its
arm's closure cause set, which closes the arm and ends a designation that arrives on it or leaves by it (R3, R4, R62, R85);
the box sensor closes none. That the row is taken whenever the timer runs (log 2), and does nothing where it does not run
(log 3), is the model's choice. -/
def Obligations.DetectorFault : Prop :=
  ∀ s : State, s.scu.rstHeld = false →
    (∀ i, (s.xu.ent.get i).stuckTimer.isRunning = true →
      let failed : State := { s with
        xu := { s.xu with ent := s.xu.ent.set i { s.xu.ent.get i with stuckTimer := .expired, stuck := true } }
        mtp := { s.mtp with flags := s.mtp.flags ||| EventKind.detectorFault.mask }
        closures := s.closures.set i { s.closures.get i with detector := true } }
      (ClosingEndsDesignation s i → Does (.detectorFault (.ent i)) s failed.endOverdue)
      ∧ (¬ ClosingEndsDesignation s i → Does (.detectorFault (.ent i)) s failed))
    ∧ (∀ j, (s.xu.ext.get j).stuckTimer.isRunning = true →
      let failed : State := { s with
        xu := { s.xu with ext := s.xu.ext.set j { s.xu.ext.get j with stuckTimer := .expired, stuck := true } }
        mtp := { s.mtp with flags := s.mtp.flags ||| EventKind.detectorFault.mask }
        closures := s.closures.set j { s.closures.get j with detector := true } }
      (ClosingEndsDesignation s j → Does (.detectorFault (.ext j)) s failed.endOverdue)
      ∧ (¬ ClosingEndsDesignation s j → Does (.detectorFault (.ext j)) s failed))
    ∧ (s.xu.box.stuckTimer.isRunning = true →
      Does (.detectorFault .box) s
        { s with
          xu := { s.xu with box := { s.xu.box with stuckTimer := .expired, stuck := true } }
          mtp := { s.mtp with flags := s.mtp.flags ||| EventKind.detectorFault.mask } })
    ∧ (∀ i, (s.xu.ent.get i).stuckTimer.isRunning = false → Does (.detectorFault (.ent i)) s s)
    ∧ (∀ j, (s.xu.ext.get j).stuckTimer.isRunning = false → Does (.detectorFault (.ext j)) s s)
    ∧ (s.xu.box.stuckTimer.isRunning = false → Does (.detectorFault .box) s s)

/-- The start window's expiry (R68, R69): a carrier that is committed has its lapse deferred, the grant standing; one that is
not loses its grant, its record becomes LAPSED (MUTE when silent), the reservation is released, a CLEARANCE falls due and
GRANT_LAPSE is raised; a designation stands, if at all, for another carrier. The clear timer's expiry (R71) marks the entry
stalled and raises CROSSING_STALL; no cell changes. Both expiries are taken whenever their timers run (log 2). -/
def Obligations.StartWindowAndClearTime : Prop :=
  ∀ (id : CarrierId) (i : Arm) (m : Movement) (s : State), s.scu.rstHeld = false → s.move i = some m →
    (DesignationSpares s i id → ∀ c, s.grantOf id = some i → m.carriers.any (Entry.inStartWindow id) = true → s.queuedOn id = some i →
      s.recordOn i id = some c →
      (c.committed s.cfg = true →
        Does (.startWindowExpiry id) s { s with xu := { s.xu with moves := s.xu.moves.set i (some { m with
          carriers := m.carriers.map fun e => if e.grantedTo id then { e with status := .granted .expired true } else e }) } })
      ∧ (c.committed s.cfg = false →
        ∃ t, exec (.startWindowExpiry id) s = .next t ∧ t.flagged .grantLapse = true
          ∧ t.recordOn i id = some { c with state := if c.silent then .mute else .lapsed }
          ∧ t.move i = (let rest := m.carriers.filter fun e => !e.grantedTo id
              if rest = [] then none else some { m with carriers := rest })
          ∧ (t.seg m.exit).r = (s.seg m.exit).r - 1
          ∧ t.aqu.sends = s.aqu.sends.set i (withClearance id (s.aqu.sends.get i))
          ∧ (∀ j, j ≠ i → t.queue j = s.queue j ∧ t.move j = s.move j) ∧ t.xu.unmatched = s.xu.unmatched
          ∧ t.scu = s.scu ∧ t.closures = s.closures ∧ t.nbrs = s.nbrs))
    ∧ (s.crossingOf id = some i → m.carriers.any (Entry.inClearTime id) = true →
      Does (.crossingStall id) s
        { s with
          xu := { s.xu with moves := s.xu.moves.set i (some { m with
            carriers := m.carriers.map fun e =>
              if e.inClearTime id then { e with status := .crossing .expired true } else e }) }
          mtp := { s.mtp with flags := s.mtp.flags ||| EventKind.crossingStall.mask } })

/-! ## Segments -/

/-- The hold timer's expiry makes the timer expired and has the direction evaluated; the quiet timer's expiry makes a clear
end ACTIVE in its resting direction, and restarts the timer of an end that is not known to be clear. Neither changes a count
or a reservation. The expiries are taken whenever their timers run (log 2). That quiet proof sets the direction to rest and
stops the hold timer in FAULTED too is the model's choice (log 38). -/
def Obligations.SegmentTimers : Prop :=
  ∀ (i : Arm) (s : State), s.scu.rstHeld = false →
    ((s.seg i).hold.isRunning = true →
      ∃ t, exec (.holdTimerExpiry i) s = .next t
        ∧ (s.steers i = false → (t.seg i).hold = .expired ∧ (t.seg i).dir = (s.seg i).dir)
        ∧ (s.steers i = true → (s.seg i).dir = .outbound → 0 < s.demand i → 0 < s.farDemand i →
            ¬ ((s.seg i).occ = 0 ∧ (s.seg i).r = 0) → (t.seg i).dir = .draining ∧ (t.seg i).hold = .stopped)
        ∧ (t.seg i).e = (s.seg i).e ∧ (t.seg i).x = (s.seg i).x ∧ (t.seg i).r = (s.seg i).r
        ∧ (t.seg i).occ = (s.seg i).occ ∧ (t.seg i).unsure = (s.seg i).unsure
        ∧ t.scu = s.scu ∧ t.aqu = s.aqu ∧ t.xu = s.xu ∧ t.nbrs = s.nbrs ∧ t.mtp = s.mtp)
    ∧ ((s.seg i).quiet.isRunning = true → s.provesQuiet i = true →
      ∃ t, exec (.quietProof i) s = .next t
        ∧ ((s.seg i).occ = 0 → s.role i = .spur ∨ (s.seg i).isolated = false →
            (t.seg i).unsure = false
            ∧ (s.demand i = 0 → s.farDemand i = 0 → s.fixedDirection i = none →
                (t.seg i).dir = .free ∧ (t.seg i).hold = .stopped))
        ∧ (¬ ((s.seg i).occ = 0 ∧ (s.role i = .spur ∨ (s.seg i).isolated = false)) → (s.seg i).unsure = true →
            s.part.working = true → t.seg i = { s.seg i with quiet := .running 0, limit := (t.seg i).limit })
        ∧ (t.seg i).e = (s.seg i).e ∧ (t.seg i).x = (s.seg i).x ∧ (t.seg i).r = (s.seg i).r
        ∧ t.scu = s.scu ∧ t.aqu = s.aqu ∧ t.xu = s.xu ∧ t.nbrs = s.nbrs ∧ t.mtp = s.mtp)

/-- Direction and limit of a lock end and a spur (R98, R100 to R104). What makes the closing handshake complete; the rows of
the direction table with own and far demand; what the entry into a direction sets. An evaluation enters the direction of the
row that applies, the limit following, and goes on from there until no row applies; where no evaluation is made, nothing
changes. The limit is open exactly at an ACTIVE lock end in INBOUND outside FAULTED; a change of the record recomputes an open
limit, closes one that was open at E_n + R_n, and else keeps it. That the closing limit reads the last-heard fields as the
change leaves them is the model's inference (log 13). -/
def Obligations.DirectionTableAndLimit : Prop :=
  (∀ (g : SegEnd) (own far : Nat),
    (g.handshakeDone = true ↔
      g.limN = g.limit ∧ g.limEpN = g.limitEpoch ∧ g.rN = 0 ∧ (g.limit - g.eN).toInt ≤ 0 ∧ g.occ = 0)
    ∧ (g.dir = .free → g.nextDirection own far =
        if own = 0 ∧ far = 0 then none
        else if far = 0 ∨ (own ≠ 0 ∧ g.last = .inbound) then some .outbound else some .inbound)
    ∧ (g.dir = .outbound → g.nextDirection own far =
        if own = 0 ∧ g.occ = 0 ∧ g.r = 0 then some (if far = 0 then .free else .inbound)
        else if g.hold = .expired ∧ far ≠ 0 then some .draining else none)
    ∧ (g.dir = .draining → g.nextDirection own far =
        if g.occ = 0 ∧ g.r = 0 then some (if far = 0 then .free else .inbound) else none)
    ∧ (g.dir = .inbound → g.nextDirection own far =
        if far = 0 ∨ (g.hold = .expired ∧ own ≠ 0) then some .closing else none)
    ∧ (g.dir = .closing → g.nextDirection own far =
        if g.handshakeDone = true then some (if own = 0 then .free else .outbound) else none)
    ∧ ∀ d, g.enterDirection d = { g with
        dir := d
        hold := if d = .outbound ∨ d = .inbound then .running 0 else .stopped
        last := if d = .outbound then .outbound else if d = .inbound then .inbound else g.last })
  ∧ ∀ (i : Arm) (s : State),
    (s.steers i = true ↔ s.present i = true ∧ s.role i ≠ .far ∧ s.fixedDirection i = none ∧ (s.seg i).unsure = false
      ∧ (s.seg i).isolated = false ∧ s.part ≠ .faulted)
    ∧ (s.steers i = false → s.evaluate i = s)
    ∧ (s.steers i = true → let row := (s.seg i).nextDirection (s.demand i) (s.farDemand i)
      (row = none → s.evaluate i = s)
      ∧ (∀ d, row = some d → s.evaluate i = (s.modSeg i (SegEnd.enterDirection d)).evaluate i)
      ∧ ((s.evaluate i).seg i).nextDirection ((s.evaluate i).demand i) ((s.evaluate i).farDemand i) = none)
    ∧ (∀ g : SegEnd, s.limitOpen i g = true ↔
        s.role i = .lock ∧ g.unsure = false ∧ g.isolated = false ∧ s.part ≠ .faulted ∧ g.dir = .inbound)
    ∧ ∀ f : SegEnd → SegEnd, let g := f (s.seg i); let configured := (s.arm i).capacity
      let capacity := (g.capN.map (min configured)).getD configured
      let limited := if s.limitOpen i g = true then
          { g with limit := g.eN + (BitVec.ofNat 8 capacity - BitVec.ofNat 8 g.occ) }
        else if s.limitOpen i (s.seg i) = true then { g with limit := g.eN + BitVec.ofNat 8 g.rN }
        else g
      s.modSeg i f = { s with segs := s.segs.set i limited }

/-- The admission test of each role (R97); FAULTED fails every one. -/
def Obligations.AdmissionTable : Prop :=
  ∀ (i : Arm) (s : State), s.present i = true →
    let g := s.seg i
    let active := s.part ≠ .faulted ∧ g.unsure = false ∧ g.isolated = false
    (s.role i = .lock ∨ s.role i = .spur →
      (s.admits i = true ↔ active ∧ g.dir = .outbound ∧ g.occ + g.r < s.effCapacity i))
    ∧ (s.role i = .far →
      (s.admits i = true ↔ active ∧ (s.nbr i).state = .live ∧ g.dirN = some .inbound
        ∧ (s.scu.epoch ≠ 0 ∧ g.heldEpoch = s.scu.epoch) ∧ 1 ≤ (g.heldLimit - (g.e + BitVec.ofNat 8 g.r)).toInt))

/-- CONFIRM CLEAR for an arm (R109): refused for an absent arm, a target that names neither an arm nor the crossing, a far
end, and an arm that a movement leads to; otherwise the lane is taken as empty: occupancy view and R 0, the unsure flag
clear, E, X, E_n and X_n kept. That the direction comes to rest in FAULTED too is the model's choice (log 38). -/
def Obligations.ConfirmClearArm : Prop :=
  ∀ (target : Byte) (s : State), s.scu.rstHeld = false → s.part.working = true →
    let refused (r : Reason) := Does (.confirmClearArm target) s (s.answered (.refused 0x14 r))
    (4 ≤ target.toNat → target ≠ 0x0F → refused .badArgument)
    ∧ ∀ i : Arm, target.toNat = i.val →
      (s.present i = false → refused .badArgument)
      ∧ (s.present i = true → s.role i = .far → refused .notLockEnd)
      ∧ (s.present i = true → s.role i ≠ .far → (∃ k m, s.move k = some m ∧ m.exit = i) → refused .notClear)
      ∧ (s.present i = true → s.role i ≠ .far → (∀ k m, s.move k = some m → m.exit ≠ i) →
        ∃ t, exec (.confirmClearArm target) s = .next t
          ∧ (t.seg i).occ = 0 ∧ (t.seg i).r = 0 ∧ (t.seg i).unsure = false
          ∧ (t.seg i).e = (s.seg i).e ∧ (t.seg i).x = (s.seg i).x ∧ (t.seg i).eN = (s.seg i).eN
          ∧ (t.seg i).xN = (s.seg i).xN ∧ (t.seg i).quiet = .stopped
          ∧ (s.fixedDirection i = none → s.demand i = 0 → s.farDemand i = 0 → (t.seg i).dir = .free)
          ∧ t.fli.tx.changeWaiting = true
          ∧ (∀ j, j ≠ i → (t.seg j).occ = (s.seg j).occ ∧ (t.seg j).r = (s.seg j).r ∧ (t.seg j).dir = (s.seg j).dir)
          ∧ t.mtp = (s.answered (.ok 0x14)).mtp
          ∧ t.scu = s.scu ∧ t.aqu = s.aqu ∧ t.closures = s.closures ∧ t.xu = s.xu ∧ t.nbrs = s.nbrs ∧ t.wkp = s.wkp)


/-! ## The floor line -/

/-- The line as the receiver reads it (R113, R114): each recessive bit raises the count of rest by one, each dominant bit
returns it to 0, whoever sent it, so the line is busy from a start bit on, and idle exactly at a count of 12 or more. A
character is its start bit and the nine bits behind it: it gives its row at the last of them, the twelfth recessive bit in
succession LINE_IDLE, and the 31st behind a character RECEIVE_GAP. A row whose bits the receiver has not read sets the count
itself (log 7). The receiver (R125): in HUNT it waits for an idle line; a character read whole begins or continues a frame, a
framing error, an unknown kind, an entry count above 4 and a character in TAIL discard it; a gap discards a frame that is not
complete; and an idle line hands a complete frame to the checks of R126, which puts it on the list of good frames where it
passes them: the list is the model's (log 8). -/
def Obligations.ReceiverTable : Prop :=
  (∀ (s : State) (level : Bool), let t := s.lineBit level
    (s.part.working = false → t = s)
    ∧ (s.part.working = true →
      t.fli.rx.rest = (if level = true then s.fli.rx.rest + 1 else 0)
      ∧ (level = false → t.lineIdle = false)
      ∧ t.fli.rx.state = s.fli.rx.state ∧ t.fli.rx.buffer = s.fli.rx.buffer ∧ t.fli.rx.good = s.fli.rx.good
      ∧ (∃ rows, t.pending = s.pending ++ rows ∧ t.fli.rx.rows = s.fli.rx.rows + rows.length
          ∧ (.lineIdle ∈ rows ↔ t.fli.rx.rest = 12) ∧ (.receiveGap ∈ rows ↔ t.fli.rx.pause = 31))
      ∧ t = { s with fli := t.fli, pending := t.pending } ∧ t.fli.tx = s.fli.tx))
  ∧ (∀ (s : State) (ch : Byte), s.part.working = true → s.fli.rx.bits = none →
    let t := (false :: (List.range 8).map ch.getLsbD ++ [true]).foldl (fun u level => u.lineBit level) s
    t.pending = s.pending ++ [.floorCharacterReceived ch true] ∧ t.fli.rx.bits = none ∧ t.fli.rx.pause = 0
      ∧ t.fli.rx.rest = trailingRest ch)
  ∧ (∀ s : State, s.lineIdle = true ↔ 12 ≤ s.fli.rx.rest)
  ∧ ∀ (ch : Byte) (ok : Bool) (s : State), s.scu.rstHeld = false → s.part.working = true →
    let rx := s.fli.rx
    let with_ (x : Receiver) : State := { s with fli := { s.fli with rx := x } }
    (∃ x, exec (.floorCharacterReceived ch ok) s = .next (with_ x) ∧ x.good = rx.good
      ∧ x.rest = (if rx.rows = 0 then (if ok = true then trailingRest ch else 0) else rx.rest) ∧ x.rows = rx.rows - 1
      ∧ (rx.state = .hunt → x.state = .hunt ∧ x.buffer = rx.buffer)
      ∧ (rx.state = .tail → x.state = .hunt ∧ x.buffer = [])
      ∧ (rx.state = .ready ∨ rx.state = .frame → ok = false → x.state = .hunt ∧ x.buffer = [])
      ∧ (rx.state = .ready → ok = true → ch = 0x5A ∨ ch = 0x5B → x.state = .frame ∧ x.buffer = [ch])
      ∧ (rx.state = .ready → ok = true → ch ≠ 0x5A → ch ≠ 0x5B → x.state = .hunt ∧ x.buffer = [])
      ∧ (rx.state = .frame → ok = true → unknownFrame (rx.buffer ++ [ch]) = false →
          x.buffer = rx.buffer ++ [ch]
          ∧ x.state = if frameLength (rx.buffer ++ [ch]) = some (rx.buffer.length + 1) then .tail else .frame)
      ∧ (rx.state = .frame → ok = true → unknownFrame (rx.buffer ++ [ch]) = true → x.state = .hunt ∧ x.buffer = []))
    ∧ (∃ x, exec .lineIdle s = .next (with_ x) ∧ (rx.rows = 0 → 12 ≤ x.rest)
      ∧ (rx.rows ≠ 0 → x.rest = rx.rest) ∧ x.rows = rx.rows - 1
      ∧ (rx.state = .hunt → x.state = .ready ∧ x.good = rx.good)
      ∧ (rx.state = .ready ∨ rx.state = .frame → x.state = rx.state ∧ x.buffer = rx.buffer ∧ x.good = rx.good)
      ∧ (rx.state = .tail → x.state = .ready ∧ x.buffer = []
          ∧ x.good = rx.good ++ (checkFrame rx.buffer rx.sentWhole).toList))
    ∧ (∃ x, exec .receiveGap s = .next (with_ x) ∧ x.good = rx.good ∧ x.rows = rx.rows - 1
      ∧ (rx.state = .frame → x.state = .hunt ∧ x.buffer = [])
      ∧ (rx.state ≠ .frame → x.state = rx.state ∧ x.buffer = rx.buffer))

/-- Every FLOOR REPORT and REPORT REQUEST that the part builds is received whole by a receiver that stands in READY: its
characters, and the idle line behind them, give one good frame that carries the sender's address, epoch, node state and hold
flag, and its entries byte by byte in ascending order of its arms. The list of good frames is the model's (log 8). The bytes
of both frames (R115, R116, R186): the node state and hold byte; the twelve bytes of each report entry, with the direction,
limit and limit epoch of a lock end, and FREE and the held limit as echo from a far end (R112); and the CRC-16 behind every
byte of the frame: initial value 0xFFFF, generator x¹⁶+x¹²+x⁵+1, each byte most significant bit first (R184). -/
def Obligations.BuiltFramesAreReceivedWhole : Prop :=
  (∀ s : State,
    let low (n : Nat) : Byte := BitVec.ofNat 8 n
    let arms := [(0 : Arm), 1, 2, 3].filter fun i => s.present i && (s.arm i).neighbour != 0
    s.buildReport = Layout.withCrc16 ([0x5A, low s.cfg.nodeAddress, s.scu.epoch, s.statusByte, low arms.length]
      ++ arms.flatMap s.reportEntry)
    ∧ s.buildRequest = Layout.withCrc16 [0x5B, low s.cfg.nodeAddress, s.scu.epoch]
    ∧ (let hold : Nat := if s.held = true ∨ s.part = .faulted then 4 else 0
       (s.part = .recovering → s.statusByte = low (1 + hold)) ∧ (s.part = .running → s.statusByte = low (2 + hold))
       ∧ (s.part = .faulted → s.statusByte = low (3 + hold)))
    ∧ ∀ i, (s.arm i).neighbour ≠ 0 → let g := s.seg i; let lock : Prop := s.cfg.nodeAddress < (s.arm i).neighbour
      let kind : Nat := [SegKind.twoWay, .oneWayUp, .oneWayDown].idxOf (s.arm i).kind
      let condition : Nat := if g.unsure = true then 2 else if g.isolated = true then 1 else 0
      s.reportEntry i = [low (s.arm i).neighbour, low ((if lock then 1 else 2) + 4 * kind + 16 * condition),
        if lock then low ([Direction.free, .outbound, .inbound, .draining, .closing].idxOf g.dir) else 0,
        g.e, g.x, low g.r, low (s.demand i), low g.occ, low (s.arm i).capacity,
        if lock then g.limit else g.heldLimit, if lock then g.limitEpoch else g.heldEpoch, 0])
  ∧ (∀ (l : List Byte) (b : Byte),
    let next (c : Half) : Half := if c.getMsbD 0 = true then (c <<< 1) ^^^ 0x1021 else c <<< 1
    let crc := Layout.crc16 l
    Layout.crc16 [] = 0xFFFF
    ∧ Layout.crc16 (l ++ [b]) = (List.range 8).foldl (fun c _ => next c) (crc ^^^ (b.setWidth 16 <<< 8))
    ∧ Layout.withCrc16 l = l ++ [crc.setWidth 8, (crc >>> 8).setWidth 8])
  ∧ ∀ (s : State) (x : Receiver), x.state = .ready →
    let hear (frame : List Byte) := (frame.foldl (fun r ch => Receiver.takeChar ch true r) x).goIdle
    (hear s.buildReport).state = .ready
    ∧ (hear s.buildReport).good = x.good ++ [.report
        { sender := BitVec.ofNat 8 s.cfg.nodeAddress, epoch := s.scu.epoch, status := s.statusByte,
          entries := s.reportArms.map fun i => entryAt (s.reportEntry i) 0 } false]
    ∧ (∀ i, entryBytes (entryAt (s.reportEntry i) 0) = s.reportEntry i)
    ∧ (hear s.buildRequest).good = x.good ++
        [.request { sender := BitVec.ofNat 8 s.cfg.nodeAddress, epoch := s.scu.epoch } false]

/-- An attempt starts in WAITING on an idle line, with the frame built from the state at that moment and, for a report, the
change waiting flag cleared; the count of rest is the receiver's own, so the line turns busy at the first dominant bit that is
read and not at the attempt (R114). A frame that is sent leaves the transmitter IDLE with its spacing and, after a report, its
periodic timer running from the frame's start by the model's clock (log 26), and stops the line-fault timer. A lost line backs
off for 48 × (1 + ((node address + 5 × attempt) mod 16)) bit times, which lies in 48 to 768; the 15th lost attempt abandons
the frame and starts the line-fault timer; a request lost outside LISTENING is dropped. The backoff's expiry raises the
attempt count and returns to WAITING; it is taken whenever the timer runs (log 2). Each clause gives the whole transmitter of
the next state (R117 to R123); where a change waits when the frame is gone, and the spacing has elapsed, a report falls due at
once (R119, R123). -/
def Obligations.AttemptSentOrLost : Prop :=
  (∀ address attempts : Nat, let b := backoffLength address attempts
    48 ≤ b ∧ b ≤ 768 ∧ b = 48 * (1 + (address + 5 * attempts) % 16))
  ∧ ∀ s : State, s.scu.rstHeld = false →
    (∀ k, s.fli.tx.pending = some k → s.fli.tx.state = .waiting → s.lineIdle = true →
      Transmits .attemptStart s { s with fli := { s.fli with tx := { s.fli.tx with
        state := .sending, attemptAt := s.now
        build := match k with
          | .report => s.buildReport
          | .request => s.buildRequest
        changeWaiting := match k with
          | .report => false
          | .request => s.fli.tx.changeWaiting } } })
    ∧ (s.fli.tx.state = .waiting → s.lineIdle = false → Transmits .attemptStart s s)
    ∧ (s.fli.tx.state = .sending → Transmits .frameSent s { s with fli := {
        tx := { s.fli.tx with
          state := .idle, pending := none, attempts := 0, backoff := .stopped, build := []
          lastStart := some s.fli.tx.attemptAt, spacing := .running (s.now - s.fli.tx.attemptAt)
          periodic := if s.fli.tx.pending = some .report then .running (s.now - s.fli.tx.attemptAt)
            else s.fli.tx.periodic
          lineFault := .stopped, faultRaised := false }
        rx := { s.fli.rx with sentWhole := true } } })
    ∧ (s.fli.tx.state = .sending → s.fli.tx.attempts < 15 →
      (s.fli.tx.pending = some .request → s.part = .listening) →
      Transmits .lostLine s { s with fli := { s.fli with tx := { s.fli.tx with
        state := .backoff, backoff := .running 0, build := []
        backoffBits := 48 * (1 + (s.cfg.nodeAddress + 5 * s.fli.tx.attempts) % 16) } } })
    ∧ (s.fli.tx.state = .sending → (s.fli.tx.pending = some .request ∧ s.part ≠ .listening) →
      Transmits .lostLine s { s with fli := { s.fli with tx := { s.fli.tx with
        state := .idle, pending := none, attempts := 0, backoff := .stopped, build := [] } } })
    ∧ (s.fli.tx.state = .sending → 15 ≤ s.fli.tx.attempts →
      (s.fli.tx.pending = some .request → s.part = .listening) →
      Transmits .lostLine s { s with fli := { s.fli with tx := { s.fli.tx with
        state := .idle, pending := none, attempts := 0, backoff := .stopped, build := []
        lineFault := if s.fli.tx.lineFault = .stopped then .running 0 else s.fli.tx.lineFault } } })
    ∧ (s.fli.tx.state = .backoff → s.fli.tx.backoff.isRunning = true →
      Transmits .backoffExpiry s { s with fli := { s.fli with tx := { s.fli.tx with
        state := .waiting, attempts := s.fli.tx.attempts + 1, backoff := .stopped } } })

/-- The transmitter's timers (R118, R119, R124): the periodic timer restarts at its expiry, makes a report due when IDLE,
replaces a report still waiting or in backoff by a new one with an attempt count of 1, which counts as an abandonment, and
leaves a request and a frame in SENDING alone; the spacing timer elapses, and a change that waits makes a report due when
IDLE; LINE_FAULT is raised once while the line-fault timer runs on. Each clause gives the whole transmitter of the next state.
The expiries are taken whenever their timers run (log 2). -/
def Obligations.TransmitterTimers : Prop :=
  ∀ s : State, s.scu.rstHeld = false →
    (s.fli.tx.periodic.isRunning = true → s.fli.tx.state = .idle →
      Transmits .periodicTimerExpiry s { s with fli := { s.fli with tx := { s.fli.tx with
        periodic := .running 0, state := .waiting, pending := some .report, attempts := 1 } } })
    ∧ (s.fli.tx.periodic.isRunning = true → s.fli.tx.state = .waiting ∨ s.fli.tx.state = .backoff →
      s.fli.tx.pending = some .report →
      Transmits .periodicTimerExpiry s { s with fli := { s.fli with tx := { s.fli.tx with
        periodic := .running 0, state := .waiting, attempts := 1, backoff := .stopped
        lineFault := if s.fli.tx.lineFault = .stopped then .running 0 else s.fli.tx.lineFault } } })
    ∧ (s.fli.tx.periodic.isRunning = true → s.fli.tx.state = .sending
        ∨ ((s.fli.tx.state = .waiting ∨ s.fli.tx.state = .backoff) ∧ s.fli.tx.pending = some .request) →
      Transmits .periodicTimerExpiry s { s with fli := { s.fli with tx := { s.fli.tx with periodic := .running 0 } } })
    ∧ (s.fli.tx.spacing.isRunning = true →
      Transmits .spacingElapsed s { s with fli := { s.fli with tx := { s.fli.tx with spacing := .expired } } })
    ∧ (s.fli.tx.lineFault.isRunning = true → s.fli.tx.faultRaised = false →
      Transmits .lineFault s { s with
        fli := { s.fli with tx := { s.fli.tx with faultRaised := true } }
        mtp := { s.mtp with flags := s.mtp.flags ||| EventKind.lineFault.mask } })
    ∧ (s.fli.tx.faultRaised = true → Transmits .lineFault s s)

/-! ## Neighbours -/

/-- A FLOOR REPORT of a neighbour that NBM takes makes its record LIVE with silence time 0 and the late flag clear; another
epoch than the one recorded is a restart; the entry for this node is stored, and its counts become the last-heard counts of
the segment end; E, X and R of no end change. A report without an entry for this node isolates the arm. Good frames that
concern nobody here are discarded: this node's own and a stranger's (R127); and a neighbour's with epoch 0, with a node state
that is no code, or with a field outside its values in the entry for this node (R131). CONFIG_MISMATCH
is raised exactly when the mismatch passes to another value than none (R136), and CAPACITY_MISMATCH once for each epoch under
which an entry of another capacity is handed over (R137). The report that makes the last neighbour record LIVE in LISTENING
ends LISTENING in the same event (R138, R170): the part enters RECOVERING, the listening window stops, the periodic timer
starts, a change report is scheduled, and a REPORT REQUEST in waiting or backoff is dropped (R116, R119, R128); any other
report leaves the part state. The list of good frames is the model's (log 8). -/
def Obligations.NeighbourReport : Prop :=
  (∀ (s : State) (f : FloorReport) (r : ReportRequest) (own : Bool), s.scu.rstHeld = false → s.part.working = true →
    let badField (e : RawEntry) : Prop := e.codes.toNat % 4 = 0 ∨ e.codes.toNat % 4 = 3 ∨ e.codes.toNat / 4 % 4 = 3
      ∨ e.codes.toNat / 16 % 4 = 3 ∨ 4 < e.dir.toNat ∨ 15 < e.r.toNat ∨ 15 < e.demand.toNat ∨ 15 < e.occ.toNat
      ∨ e.capacity = 0 ∨ 15 < e.capacity.toNat
    ((f.sender.toNat = s.cfg.nodeAddress ∧ own = true)
        ∨ (f.sender.toNat ≠ s.cfg.nodeAddress ∧ (s.armOfNeighbour f.sender.toNat = none ∨ f.epoch = 0
            ∨ f.status.toNat % 4 = 0 ∨ ∃ e, FloorReport.entryFor s.cfg.nodeAddress f = some e ∧ badField e)) →
      Does (.floorReportReceived f own) s
        { s with fli := { s.fli with rx := s.fli.rx.handOver (.report f own) } })
    ∧ ((r.sender.toNat = s.cfg.nodeAddress ∧ own = true)
        ∨ (r.sender.toNat ≠ s.cfg.nodeAddress ∧ (s.armOfNeighbour r.sender.toNat = none ∨ r.epoch = 0)) →
      Does (.reportRequestReceived r own) s
        { s with fli := { s.fli with rx := s.fli.rx.handOver (.request r own) } }))
  ∧ ∀ (s : State) (f : FloorReport) (own : Bool) (i : Arm), s.scu.rstHeld = false → s.part.working = true →
    f.sender.toNat ≠ s.cfg.nodeAddress → s.armOfNeighbour f.sender.toNat = some i →
    reportAcceptable f.epoch f.status (FloorReport.entryFor s.cfg.nodeAddress f) = true →
    ∃ t, exec (.floorReportReceived f own) s = .next t
      ∧ (t.nbr i).state = .live ∧ (t.nbr i).silence = 0 ∧ (t.nbr i).late = false ∧ (t.nbr i).epoch = some f.epoch
      ∧ (t.nbr i).node = (nodeState f.status).map (fun p => (p, f.status.getLsbD 2))
      ∧ (∀ old, (s.nbr i).epoch = some old → old ≠ f.epoch → t.flagged .neighbourRestart = true)
      ∧ ((s.nbr i).epoch = none ∨ (s.nbr i).epoch = some f.epoch →
          t.flagged .neighbourRestart = s.flagged .neighbourRestart)
      ∧ (t.flagged .configMismatch = true ↔ s.flagged .configMismatch = true
          ∨ ((t.nbr i).mismatch ≠ .none ∧ (t.nbr i).mismatch ≠ (s.nbr i).mismatch))
      ∧ (let raised : Prop := (s.nbr i).capFlag = true ∧ ((s.nbr i).epoch = none ∨ (s.nbr i).epoch = some f.epoch)
         let differs : Prop := ∃ e ∈ FloorReport.entryFor s.cfg.nodeAddress f, e.capacity.toNat ≠ (s.arm i).capacity
         ((t.nbr i).capFlag = true ↔ raised ∨ differs)
         ∧ (t.flagged .capacityMismatch = true ↔ s.flagged .capacityMismatch = true ∨ (differs ∧ ¬ raised)))
      ∧ (∀ e, FloorReport.entryFor s.cfg.nodeAddress f = some e →
          (t.nbr i).entry = some e ∧ (t.nbr i).base = .current
          ∧ (t.seg i).eN = e.e ∧ (t.seg i).xN = e.x ∧ (t.seg i).rN = e.r.toNat ∧ (t.seg i).demN = e.demand.toNat
          ∧ (t.seg i).limN = e.lim ∧ (t.seg i).limEpN = e.limEpoch
          ∧ (t.nbr i).mismatch = (if entryKind e = some (s.arm i).kind then .none else .kind)
          ∧ (entryKind e = some (s.arm i).kind → (t.seg i).isolated = false)
          ∧ (entryKind e ≠ some (s.arm i).kind → (t.seg i).isolated = true))
      ∧ (FloorReport.entryFor s.cfg.nodeAddress f = none →
          (t.nbr i).mismatch = .noEntry ∧ (t.seg i).isolated = true)
      ∧ (let last : Prop := s.part = .listening ∧ ∀ j, j ≠ i → s.hasNeighbour j = true → (s.nbr j).state = .live
         (¬ last → t.scu = s.scu ∧ t.fli.tx.periodic = s.fli.tx.periodic)
         ∧ (last → t.scu = { s.scu with part := .recovering, listening := .stopped }
            ∧ t.fli.tx.periodic = .running 0 ∧ t.fli.tx.changeWaiting = true
            ∧ (s.fli.tx.state ≠ .sending → t.fli.tx.pending ≠ some .request)))
      ∧ (∀ j, (t.seg j).e = (s.seg j).e ∧ (t.seg j).x = (s.seg j).x ∧ (t.seg j).r = (s.seg j).r)
      ∧ (∀ j, j ≠ i → t.nbr j = s.nbr j)
      ∧ t.aqu = s.aqu ∧ t.closures = s.closures ∧ t.xu = s.xu ∧ t.wkp = s.wkp

/-- A neighbour's entry at the segment end (R94 to R96, R98, R99, R107, R110). An ordinary entry changes the occupancy
view by ΔE − ΔX where both deltas are 30 or less, and else leaves it and makes the end UNSURE; a first entry gives a lock
end that is UNSURE the far end's view; the first entry of a new epoch keeps the view and makes the end UNSURE. The
consistency test is made on the view that an ordinary entry leaves, also where both deltas are 0, and at a far end too,
which is the model's inference (log 12), on each view adopted, and on the view under a new effective capacity; where it
fails, COUNT_INCONSISTENT is raised and the unsure flag is set. A far end holds the limit and its epoch, and follows the
condition of its lock end. At a lock end, a new base takes E_n + R_n of the entry as the limit, under the neighbour's
epoch; an open limit is recomputed, a limit that closes takes E_n + R_n, and a closed one only falls to it. With which E_n
+ R_n an open limit closes is the model's inference (log 13): the entry's, but the one last heard where a mismatch, the
deltas or the test of the view close it before the entry's fields are stored. -/
def Obligations.NeighbourEntryAtSegmentEnd : Prop :=
  ∀ (s : State) (f : FloorReport) (own : Bool) (i : Arm) (e : RawEntry), s.scu.rstHeld = false → s.part.working = true →
    Bounded s → f.sender.toNat ≠ s.cfg.nodeAddress → s.armOfNeighbour f.sender.toNat = some i →
    reportAcceptable f.epoch f.status (some e) = true → FloorReport.entryFor s.cfg.nodeAddress f = some e →
    let g := s.seg i
    let lock : Prop := s.role i = .lock
    let sameEpoch : Prop := (s.nbr i).epoch = none ∨ (s.nbr i).epoch = some f.epoch
    let first : Prop := (s.nbr i).base = .none
    let ordinary : Prop := (s.nbr i).base = .current ∧ sameEpoch
    let capacity : Nat := min (s.arm i).capacity e.capacity.toNat
    let deltaE := (e.e - g.eN).toNat
    let deltaX := (e.x - g.xN).toNat
    let counted : Prop := ordinary ∧ deltaE ≤ 30 ∧ deltaX ≤ 30
    let sum : Int := (g.occ : Int) + deltaE - deltaX
    let load (view : Int) : Int := if lock then view + g.r else view
    let adopted : Prop := first ∧ lock ∧ g.unsure = true
    let counts : Nat := if counted then min sum.toNat 15 else g.occ
    let view : Nat := if adopted then e.occ.toNat else counts
    let byDeltas : Prop := ordinary ∧ (¬ counted ∨ sum < 0 ∨ (s.effCapacity i : Int) < load sum)
    let failed : Prop := byDeltas ∨ (capacity ≠ s.effCapacity i ∧ (capacity : Int) < load counts)
      ∨ (adopted ∧ e.occ.toNat ≠ g.occ ∧ (capacity : Int) < load e.occ.toNat)
    let unsure : Prop := g.unsure = true ∨ failed ∨ (¬ first ∧ ¬ ordinary)
    let heard := e.e + e.r
    let lowered (limit : Byte) : Byte := if (heard - limit).toInt < 0 then heard else limit
    ∃ t, exec (.floorReportReceived f own) s = .next t ∧ t.effCapacity i = capacity
      ∧ (lock → (t.seg i).occ = view ∧ ((t.seg i).unsure = true ↔ unsure)
          ∧ (t.flagged .countInconsistent = true ↔ s.flagged .countInconsistent = true ∨ failed)
          ∧ (t.seg i).heldLimit = g.heldLimit ∧ (t.seg i).heldEpoch = g.heldEpoch
          ∧ (t.limitOpen i (t.seg i) = true →
              (t.seg i).limit = e.e + (BitVec.ofNat 8 capacity - BitVec.ofNat 8 (t.seg i).occ))
          ∧ (¬ ordinary → (t.seg i).limitEpoch = f.epoch ∧ (t.limitOpen i (t.seg i) = false → (t.seg i).limit = heard))
          ∧ (ordinary → (t.seg i).limitEpoch = g.limitEpoch
              ∧ (t.limitOpen i (t.seg i) = false →
                (s.limitOpen i g = true → (t.seg i).limit =
                  if byDeltas ∨ entryKind e ≠ some (s.arm i).kind then lowered (g.eN + BitVec.ofNat 8 g.rN) else heard)
                ∧ (s.limitOpen i g = false → g.isolated = false ∨ g.dir ≠ .inbound →
                  (t.seg i).limit = lowered g.limit))))
      ∧ (s.role i = .far →
          let follows : Prop := unsure ∧ entryCondition e = some .active ∧ e.limEpoch = s.scu.epoch
          (t.seg i).heldLimit = e.lim ∧ (t.seg i).heldEpoch = e.limEpoch
          ∧ (t.seg i).limit = g.limit ∧ (t.seg i).limitEpoch = g.limitEpoch ∧ (t.seg i).dir = g.dir
          ∧ (t.seg i).occ = (if follows then e.occ.toNat else view)
          ∧ ((t.seg i).unsure = true ↔ (follows ∧ capacity < e.occ.toNat)
              ∨ (¬ follows ∧ (unsure ∨ entryCondition e = some .unsure)))
          ∧ (t.flagged .countInconsistent = true ↔
              s.flagged .countInconsistent = true ∨ failed ∨ (follows ∧ capacity < e.occ.toNat)))

/-- A REPORT REQUEST of a neighbour whose epoch is recorded is a restart: the record becomes AWAITED and the arm's end is
isolated; without a recorded epoch the epoch is recorded. A record that is LIVE falls SILENT at its silence window and its
end is isolated; one that is AWAITED raises the event once. That the window's row is taken whatever the silence time is the
model's choice (log 2). -/
def Obligations.NeighbourRestartAndSilence : Prop :=
  ∀ (s : State) (i : Arm), s.scu.rstHeld = false → s.part.working = true →
    (∀ (f : ReportRequest) (own : Bool), f.sender.toNat ≠ s.cfg.nodeAddress →
      s.armOfNeighbour f.sender.toNat = some i → f.epoch ≠ 0 →
      ∃ t, exec (.reportRequestReceived f own) s = .next t ∧ (t.nbr i).epoch = some f.epoch
        ∧ ((s.nbr i).epoch = none → t.nbr i = { s.nbr i with epoch := some f.epoch } ∧ t.mtp = s.mtp)
        ∧ ((s.nbr i).epoch ≠ none →
            t.nbr i = { s.nbr i with
              epoch := some f.epoch, state := .awaited, silence := 0, late := false, capFlag := false
              base := if (s.nbr i).base = .none then .none else .newEpoch }
            ∧ (t.seg i).isolated = true ∧ t.flagged .neighbourRestart = true)
        ∧ (s.part ≠ .listening → t.fli.tx.changeWaiting = true)
        ∧ (∀ j, j ≠ i → t.nbr j = s.nbr j)
        ∧ t.scu = s.scu ∧ t.aqu = s.aqu ∧ t.closures = s.closures ∧ t.xu = s.xu ∧ t.wkp = s.wkp)
    ∧ (s.hasNeighbour i = true →
      ∃ t, exec (.neighbourSilent i) s = .next t
        ∧ (t.nbr i).silence = max (s.nbr i).silence (silenceWindow s.cfg)
        ∧ ((s.nbr i).state = .live →
            (t.nbr i).state = .silent ∧ (t.seg i).isolated = true ∧ t.flagged .neighbourSilent = true)
        ∧ ((s.nbr i).state = .awaited → (t.nbr i).state = .awaited ∧ (t.nbr i).late = true)
        ∧ ((s.nbr i).state = .awaited → (s.nbr i).late = false → t.flagged .neighbourSilent = true)
        ∧ ((s.nbr i).state = .silent ∨ ((s.nbr i).state = .awaited ∧ (s.nbr i).late = true) →
            t.mtp = s.mtp ∧ (t.nbr i).state = (s.nbr i).state)
        ∧ (∀ j, j ≠ i → t.nbr j = s.nbr j)
        ∧ t.scu = s.scu ∧ t.aqu = s.aqu ∧ t.closures = s.closures ∧ t.xu = s.xu ∧ t.wkp = s.wkp)

/-! ## Walkway and hold -/

/-- The walkway's timers. At the interval's end in CYCLIC, the staged times are latched, and CLOSING begins, or the cycle is
skipped for W = 0; in ON_DEMAND without a request the timer stands expired, and with a request the latch point is reached, as
`Wkp.latched` gives it (R143). The clearance timer raises WALKWAY_BLOCKED and stays CLOSING. The open timer closes the walkway,
starts the interval and makes a round due. The expiries are taken whenever their timers run (log 2). -/
def Obligations.WalkwayTimers : Prop :=
  ∀ s : State, s.scu.rstHeld = false →
    (s.wkp.interval.isRunning = true → s.cfg.walkMode = .cyclic → 0 < s.wkp.stagedW → s.walkwayClear = false →
      Does .intervalExpiry s { s with wkp := { s.wkp with
        latchedP := s.wkp.stagedP, latchedW := s.wkp.stagedW, state := .closing, interval := .stopped,
        clearance := .running 0 } })
    ∧ (s.wkp.interval.isRunning = true → s.cfg.walkMode = .cyclic → 0 < s.wkp.stagedW → s.walkwayClear = true →
      s.granting = true →
      Does .intervalExpiry s { s with
        wkp := { s.wkp with
          latchedP := s.wkp.stagedP, latchedW := s.wkp.stagedW, state := .opened, interval := .stopped,
          clearance := .stopped, opening := .running 0, request := false }
        jar := { s.jar with due := true } })
    ∧ (s.wkp.interval.isRunning = true → s.cfg.walkMode = .cyclic → s.wkp.stagedW = 0 → s.granting = true →
      s.walkWorking = true →
      Does .intervalExpiry s { s with wkp := { s.wkp with
        latchedP := s.wkp.stagedP, latchedW := 0, interval := .running 0, request := false } })
    ∧ (s.wkp.interval.isRunning = true → s.cfg.walkMode = .onDemand → s.wkp.request = false →
      Does .intervalExpiry s { s with wkp := { s.wkp with interval := .expired } })
    ∧ (s.wkp.interval.isRunning = true → s.cfg.walkMode = .onDemand → s.wkp.request = true → s.granting = true →
      s.walkWorking = true →
      Does .intervalExpiry s { s with
        wkp := Wkp.latched s.walkwayClear s.wkp
        jar := { s.jar with due := s.jar.due || (s.walkwayClear && 0 < s.wkp.stagedW) } })
    ∧ (s.wkp.state = .closing → s.wkp.clearance.isRunning = true →
      Does .walkwayBlocked s { s with
        wkp := { s.wkp with clearance := .stopped }
        mtp := { s.mtp with flags := s.mtp.flags ||| EventKind.walkwayBlocked.mask } })
    ∧ (s.wkp.state = .opened → s.wkp.opening.isRunning = true → s.granting = true → s.walkWorking = true →
      Does .openTimerExpiry s { s with
        wkp := { s.wkp with state := .closed, opening := .stopped, interval := .running 0 }
        jar := { s.jar with due := true } })

/-- The settle timer's expiry removes both carrier causes (R158); when OPERATOR does not remain, the junction is released
(R159): every EMERGENCY cell becomes FREE and a round is due; the expiry is taken whenever the timer runs (log 2). STOP and
RELEASE (R160), where MTP accepts them. STOP adds OPERATOR; a first cause is hold entry (R156): it drops the round due and the
overdue designation with its RESERVED cells, changes no cell to EMERGENCY, withdraws the grants of carriers that are not
committed and no other, makes a CLEARANCE due for every queued record, and closes the walkway. RELEASE removes OPERATOR, and
is answered NOT_CLEAR while another cause stands; in RUNNING the release of the junction follows, and in LISTENING, RECOVERING
and FAULTED nothing more. -/
def Obligations.StopReleaseAndSettle : Prop :=
  ∀ s : State, s.scu.rstHeld = false → s.part.working = true →
    (s.hld.settle.isRunning = true → s.hld.operator = true → Does .settleTimerExpiry s
      { s with hld := { overrun := false, unauthorised := false, operator := true, settle := .stopped } })
    ∧ (s.hld.settle.isRunning = true → s.hld.operator = false → s.part = .running →
      ∃ t, exec .settleTimerExpiry s = .next t ∧ t.held = false ∧ t.beacon = false ∧ t.jar.due = true
        ∧ (∀ k, t.cell k = if s.cell k = .emergency then .free else s.cell k)
        ∧ t.wkp = (if s.walkWorking = true then { s.wkp with interval := .running 0 } else s.wkp)
        ∧ t.xu.moves = s.xu.moves ∧ t.xu.unmatched = s.xu.unmatched ∧ t.scu = s.scu ∧ t.aqu = s.aqu
        ∧ t.closures = s.closures ∧ t.nbrs = s.nbrs ∧ t.mtp = s.mtp)
    ∧ (∃ t, exec .stop s = .next t ∧ t.hld.operator = true ∧ t.hld.overrun = s.hld.overrun
        ∧ t.hld.unauthorised = s.hld.unauthorised ∧ t.beacon = true ∧ t.granting = false
        ∧ t.mtp.buffer = .busy (.ok 0x12)
        ∧ (s.held = false → s.part ≠ .faulted → t.jar.overdue = none ∧ t.jar.due = false ∧ t.wkp.state = .closed
            ∧ (∀ k, s.cell k ≠ .emergency → t.cell k ≠ .emergency)
            ∧ (∀ o k, s.jar.overdue = some o → s.cell k = .reserved o.id → t.cell k = .free)
            ∧ (CrossingLaw s → QueueLaw s → GrantLaw s → GrantsHeld s t)
            ∧ ∀ j, t.aqu.sends.get j = withClearances (s.queue j) (s.aqu.sends.get j))
        ∧ (s.held = true ∨ s.part = .faulted → t.xu = s.xu ∧ t.aqu = s.aqu ∧ t.wkp = s.wkp)
        ∧ t.xu.unmatched = s.xu.unmatched ∧ t.scu = s.scu ∧ t.closures = s.closures ∧ t.nbrs = s.nbrs)
    ∧ (s.heldForCarrier = true →
        Does .release s (({ s with hld := { s.hld with operator := false } }).answered (.refused 0x13 .notClear)))
    ∧ (s.held = false → Does .release s (s.answered (.ok 0x13)))
    ∧ (s.heldForCarrier = false → s.hld.operator = true → s.part ≠ .running →
        Does .release s (({ s with hld := { s.hld with operator := false } }).answered (.ok 0x13)))
    ∧ (s.heldForCarrier = false → s.hld.operator = true → s.part = .running →
        ∃ t, exec .release s = .next t ∧ t.held = false ∧ t.beacon = false ∧ t.jar.due = true
          ∧ (∀ k, t.cell k = if s.cell k = .emergency then .free else s.cell k)
          ∧ t.xu.moves = s.xu.moves ∧ t.xu.unmatched = s.xu.unmatched ∧ t.mtp = (s.answered (.ok 0x13)).mtp
          ∧ t.scu = s.scu ∧ t.aqu = s.aqu ∧ t.closures = s.closures ∧ t.nbrs = s.nbrs)

/-! ## Maintenance port -/

/-- The reads answer in every part state with a snapshot of the state, the response standing in the buffer, and change
nothing but the port's own buffer and stream. Their contents (R181, R182, R183, R187), item by item: an enumerated value by
its place in its rule's list or by its code in chapter 13, a list behind its count, a set as one bit per member, none as
0xFF. Where the layout leaves a code open, the bytes are the model's choice: the direction shown before LISTENING (log 15), a
flag as 1 and the load outcome and mismatch of none as 0xFF (log 16), the marker of a spur, a free value (log 17), the role
SPUR by its place (log 31), the last direction as a direction is coded (log 40), the order of the movement records (log 19),
S3 and S4 as arm numbers (log 32), the base state NONE and the cell UNKNOWN by place (log 33), the validity as a flag (log
34), the node state and hold flag as two items (log 35), an unmatched ID that is not known as 0 (log 36), an absent arm's
detectors and closure cause set in READ CROSSING (log 37), the flags and the mask of READ EVENTS as two event sets of three
bytes (log 42), a filtered level as 1 when active (log 43). -/
def Obligations.ReadsAnswerAndChangeNothing : Prop :=
  (∀ s : State, s.scu.rstHeld = false →
    exec .readStatus s = .next (s.answered (.data 0x01 s.statusData))
    ∧ exec .readEvents s = .next (s.answered (.data 0x02 s.eventData))
    ∧ exec .readCrossing s = .next (s.answered (.data 0x06 s.crossingData))
    ∧ exec .readConfig s = .next (s.answered (.data 0x09 (Image.bytes s.cfg)))
    ∧ (∀ (i : Arm) (b : Byte), b.toNat = i.val →
        exec (.readQueue b) s = .next (s.answered (.data 0x05 (s.queueData i)))
        ∧ exec (.readSegment b) s = .next (s.answered (.data 0x07 (s.segmentData i)))
        ∧ exec (.readNeighbour b) s = .next (s.answered (.data 0x08 (s.neighbourData i)))
        ∧ (s.present i = false → s.queueData i = [0xFF] ∧ s.segmentData i = [0xFF] ∧ s.neighbourData i = [0xFF]))
    ∧ ∀ b : Byte, 4 ≤ b.toNat →
        exec (.readQueue b) s = .next (s.answered (.refused 0x05 .badArgument))
        ∧ exec (.readSegment b) s = .next (s.answered (.refused 0x07 .badArgument))
        ∧ exec (.readNeighbour b) s = .next (s.answered (.refused 0x08 .badArgument)))
  ∧ (timerByte .stopped = 0 ∧ (∀ n, timerByte (.running n) = 1) ∧ timerByte .expired = 2)
  ∧ (∀ s : State,
    s.statusData =
      [Layout.byte ([PartState.loading, .unconfigured, .settling, .listening, .recovering, .running, .faulted].idxOf s.part),
        Layout.byte ([RestartCause.powerOn, .resetPin, .command].idxOf s.scu.cause),
        if s.scu.load = .none then 0xFF
        else Layout.byte ([LoadOutcome.none, .loaded, .refused, .bypassed].idxOf s.scu.load),
        Layout.byte s.scu.stages, s.scu.epoch, Layout.byte s.cfg.nodeAddress,
        Layout.byte (Layout.bits [s.hld.overrun, s.hld.unauthorised, s.hld.operator]), timerByte s.hld.settle,
        Layout.byte (s.firstPending.getD 0xFF)]
    ∧ s.eventData =
      [Layout.byte s.mtp.flags.toNat, Layout.byte (s.mtp.flags.toNat / 256), Layout.byte (s.mtp.flags.toNat / 65536),
        Layout.byte s.mtp.mask.toNat, Layout.byte (s.mtp.mask.toNat / 256), Layout.byte (s.mtp.mask.toNat / 65536)]
    ∧ ∀ i, s.present i = true → s.queueData i =
      [Layout.byte (s.queueCapacity i), Layout.byte (s.demand i), Layout.byte (s.queue i).length]
      ++ (s.queue i).flatMap fun c => Layout.two c.id.toNat
        ++ [Layout.byte c.arrival, Layout.byte c.cls, Layout.flag c.priority, Layout.byte c.exit]
        ++ Layout.two c.length ++ Layout.two c.distance ++ Layout.two c.speed ++ Layout.two c.silence
        ++ [Layout.byte ([CarrierState.waiting, .granted, .lapsed, .mute].idxOf c.state), Layout.flag c.silent,
          Layout.byte c.skip, Layout.flag c.overdue])
  ∧ (∀ s : State,
    let set (l : List Arm) : Byte := Layout.byte (Layout.bits (Arm.list.map fun k => l.contains k))
    let cell (k : Arm) : List Byte := match s.cell k with
      | .free => [0, 0xFF, 0xFF, 0xFF]
      | .held h => [1, Layout.byte h, 0xFF, 0xFF]
      | .reserved c => [2, 0xFF] ++ Layout.two c.toNat
      | .emergency => [3, 0xFF, 0xFF, 0xFF]
      | .unknown => [4, 0xFF, 0xFF, 0xFF]
    let entry (e : Entry) : List Byte := Layout.two e.id.toNat ++ match e.status with
      | .granted start deferred => [0, Layout.byte e.cls, Layout.flag deferred, timerByte start]
      | .crossing clear stalled => [1, Layout.byte e.cls, Layout.flag stalled, timerByte clear]
    let move (i : Arm) (m : Movement) : List Byte :=
      [Layout.byte i, Layout.byte m.exit, set (cellSet i m.exit), Layout.byte m.carriers.length]
      ++ m.carriers.flatMap entry ++ [Layout.byte m.followOns, Layout.flag m.rescued]
    let unmatched (u : Unmatched) : List Byte := Layout.two u.id.toNat
      ++ [Layout.byte ((u.arrival.map Fin.val).getD 0xFF), Layout.byte ((u.exit.map Fin.val).getD 0xFF),
        Layout.byte ([Source.entry, .box].idxOf u.source)]
    let filter (x : Filter) : List Byte := [Layout.flag x.level, Layout.flag x.stuck]
    let moves := Arm.list.filterMap fun i => (s.move i).map (move i)
    s.crossingData = Arm.list.flatMap cell
      ++ Layout.byte moves.length :: moves.flatten
      ++ Layout.byte s.xu.unmatched.length :: s.xu.unmatched.flatMap unmatched
      ++ Arm.list.flatMap (fun i => filter (s.xu.ent.get i)) ++ Arm.list.flatMap (fun j => filter (s.xu.ext.get j))
      ++ filter s.xu.box
      ++ Arm.list.map (fun i => Layout.byte (Layout.bits [(s.closures.get i).operator, (s.closures.get i).detector]))
      ++ [Layout.byte ([Layer.priority, .normal].idxOf s.jar.s1), Layout.byte ([ArmPair.arms01, .arms23].idxOf s.jar.s2),
        if s.jar.s3 = .lower then 0 else 1, if s.jar.s4 = .lower then 2 else 3]
      ++ (match s.jar.overdue with
        | none => [0xFF, 0xFF, 0xFF, 0xFF, 0xFF]
        | some o => Layout.two o.id.toNat
            ++ [Layout.byte o.arrival, Layout.byte o.exit, set (cellSet o.arrival o.exit)])
      ++ [Layout.byte ([WalkState.closed, .closing, .opened].idxOf s.wkp.state), Layout.flag s.wkp.request]
      ++ Layout.two s.wkp.stagedP ++ [Layout.byte s.wkp.stagedW] ++ Layout.two s.wkp.latchedP ++ [Layout.byte s.wkp.latchedW]
      ++ [timerByte s.wkp.interval, timerByte s.wkp.clearance, timerByte s.wkp.opening])
  ∧ ∀ (s : State) (i : Arm), s.present i = true → let g := s.seg i; let n := s.nbr i
    let condition (c : Condition) : Nat := [Condition.active, .isolated, .unsure].idxOf c
    let direction (d : Direction) : Nat := [Direction.free, .outbound, .inbound, .draining, .closing].idxOf d
    s.segmentData i =
      [if s.role i = .lock then 1 else 2,
        g.e, g.x, Layout.byte g.r, Layout.byte g.occ, Layout.flag g.unsure, Layout.flag g.isolated, g.eN, g.xN,
        Layout.byte g.rN, Layout.byte g.demN, Layout.byte g.occN, Layout.byte (g.capN.getD 0xFF),
        Layout.byte ((g.condN.map condition).getD 0xFF), Layout.byte ((g.dirN.map direction).getD 0xFF), g.limN, g.limEpN,
        Layout.byte (direction (if s.part.working = true then g.dir else .free)), if g.last = .outbound then 1 else 2,
        g.limit, g.limitEpoch, timerByte g.hold, timerByte g.quiet, g.heldLimit, g.heldEpoch, Layout.flag (s.heldValid i),
        Layout.byte (condition g.condition), Layout.byte (s.effCapacity i)]
    ∧ ((s.arm i).neighbour = 0 → s.neighbourData i = [Config.spurMarker])
    ∧ ((s.arm i).neighbour ≠ 0 → s.neighbourData i =
      [Layout.byte (s.arm i).neighbour, Layout.byte ([NeighbourState.awaited, .live, .silent].idxOf n.state),
        n.epoch.getD 0, Layout.byte ([BaseState.none, .current, .newEpoch].idxOf n.base)]
      ++ Layout.two n.silence
      ++ [Layout.flag n.late,
        if n.mismatch = .none then 0xFF else Layout.byte ([Mismatch.none, .noEntry, .kind].idxOf n.mismatch),
        Layout.flag n.capFlag]
      ++ (match n.node with
        | none => [0xFF, 0xFF]
        | some p => [Layout.byte (1 + [NodeState.recovering, .running, .faulted].idxOf p.1), Layout.flag p.2])
      ++ (match n.entry with
        | none => List.replicate 12 0xFF
        | some e => [e.address, e.codes, e.dir, e.e, e.x, e.r, e.demand, e.occ, e.capacity, e.lim, e.limEpoch, e.ignored]))

/-- The command and response buffer (R177) and the port's lines (R176, R184, R187). A stored response is discarded when it was
the stream of the transaction and every byte of it was clocked, and kept whole otherwise; a bad frame is refused with
BAD_ARGUMENT; a response being prepared becomes ready. SDO carries NONE, NOT_READY or the stored response from its first byte,
each byte from its most significant bit, and 0x00 for every byte beyond it; it is not driven while no transaction is in
progress or RST_N is asserted. SDI gives a bit at each clock, and the end of the transaction its command and the stream it
carried; a transaction that a restart has broken off gives none. That the buffer's state at the beginning of a transaction
sets the stream of the whole of it is the model's inference (log 30), that SDO is not driven after a restart before the
next transaction is its choice (log 41), and so is the field mtp.sdo, the stream of the last judged transaction (log 20). The
bytes of each response (R187): status, code answered, reason, data length, data and CRC-16, which BuiltFramesAreReceivedWhole
gives. AcceptanceByPartState gives the command of each frame. -/
def Obligations.ResponseBuffer : Prop :=
  (∀ s : State, s.scu.rstHeld = false →
    (∀ bits, ∃ b, exec (.idleFrame bits) s = .next { s with mtp := { s.mtp with
        sdo := s.mtp.stream, carried := s.mtp.carried.tail, buffer := b } }
      ∧ (bits % 8 ≠ 0 → b = s.mtp.buffer)
      ∧ ((∀ r, s.mtp.buffer ≠ .ready r) → b = s.mtp.buffer)
      ∧ (∀ r, bits % 8 = 0 → s.mtp.buffer = .ready r →
          b = if s.mtp.stream = r ∧ (Response.bytes r).length ≤ bits / 8 then .empty else .ready r))
    ∧ (s.mtp.carried = [] → s.mtp.stream = s.mtp.buffer.stream)
    ∧ (∀ r rest, s.mtp.carried = r :: rest → s.mtp.stream = r)
    ∧ (∀ code, code ≠ 0 → exec (.badCommandFrame code) s = .next (s.answered (.refused code .badArgument)))
    ∧ (∀ r, s.mtp.buffer = .busy r →
        exec .responseReady s = .next { s with mtp := { s.mtp with buffer := .ready r } })
    ∧ (s.mtp.buffer = .empty → s.mtp.buffer.stream = .none)
    ∧ (∀ r, s.mtp.buffer = .busy r → s.mtp.buffer.stream = .notReady)
    ∧ ∀ r, s.mtp.buffer = .ready r → s.mtp.buffer.stream = r)
  ∧ (∀ (code : Byte) (reason : Reason) (content : List Byte), let low (n : Nat) : Byte := BitVec.ofNat 8 n
    Response.bytes .none = Layout.withCrc16 [0, 0, 0, 0, 0] ∧ Response.bytes .notReady = Layout.withCrc16 [1, 0, 0, 0, 0]
    ∧ Response.bytes (.ok code) = Layout.withCrc16 [2, code, 0, 0, 0]
    ∧ Response.bytes (.refused code reason) = Layout.withCrc16
        [3, code, low (1 + [Reason.wrongState, .notClear, .notLockEnd, .badArgument].idxOf reason), 0, 0]
    ∧ Response.bytes (.data code content) = Layout.withCrc16
        ([4, code, 0, low content.length, low (content.length / 256)] ++ content))
  ∧ (∀ (r : Response) (k : Nat), r.streamBit k = (r.bytes.getD (k / 8) 0).getMsbD (k % 8))
  ∧ (∀ (n : Nat) (b : Byte) (rest : List Bool),
      portBytes (n + 1) ((List.range 8).map b.getMsbD ++ rest) = b :: portBytes n rest)
  ∧ ∀ s : State,
    (s.scu.rstHeld = true ∨ s.mtp.transaction = none → s.sdo = none)
    ∧ (s.scu.rstHeld = false →
      s.selectPort = { s with mtp := { s.mtp with transaction := some { sdi := [], stream := s.mtp.buffer.stream } } })
    ∧ (∀ bit, s.mtp.transaction = none → s.clockPort bit = s ∧ s.deselectPort = s)
    ∧ ∀ x, s.mtp.transaction = some x →
      (s.scu.rstHeld = false → s.sdo = some (x.stream.streamBit x.sdi.length))
      ∧ (∀ bit, s.clockPort bit = { s with mtp := { s.mtp with transaction := some { x with sdi := x.sdi ++ [bit] } } })
      ∧ s.deselectPort = { s with
          mtp := { s.mtp with transaction := none, carried := s.mtp.carried ++ [x.stream] }
          pending := s.pending ++ [transactionCommand x.sdi.length (portBytes (x.sdi.length / 8) x.sdi)] }

/-- ACKNOWLEDGE EVENTS clears each named flag and no other; SET MASK gives the whole mask its values; an event set outside its
coded range is refused with BAD_ARGUMENT. The eighteen kinds stand in the priority order of R180, the kind of priority k at
bit k − 1 (R187). ATTN_N is asserted exactly while a flag is set whose mask bit is enabled, and the
first pending event is the highest of them. -/
def Obligations.FlagsMaskAndAttention : Prop :=
  ([EventKind.configFault, .clockLoss, .addressClash, .overrun, .unauthorisedEntry, .crossingStall, .countInconsistent,
      .neighbourSilent, .neighbourRestart, .configMismatch, .detectorFault, .phantomExit, .grantLapse, .carrierMute,
      .walkwayBlocked, .lineFault, .capacityMismatch, .rescue].map EventKind.bit = List.range 18)
  ∧ (∀ (s : State) (set : BitVec 24), s.scu.rstHeld = false →
    (set.toNat < 2 ^ 18 →
      (∃ t, exec (.acknowledgeEvents set) s = .next t
        ∧ (∀ k : EventKind, t.flagged k = (s.flagged k && !set.getLsbD k.bit))
        ∧ t.mtp.mask = s.mtp.mask ∧ t.mtp.buffer = .busy (.ok 0x03) ∧ t = { s with mtp := t.mtp })
      ∧ ∃ t, exec (.setMask set) s = .next t
        ∧ (∀ k : EventKind, t.mtp.mask.getLsbD k.bit = set.getLsbD k.bit)
        ∧ t.mtp.flags = s.mtp.flags ∧ t.mtp.buffer = .busy (.ok 0x04) ∧ t = { s with mtp := t.mtp })
    ∧ (2 ^ 18 ≤ set.toNat →
      exec (.acknowledgeEvents set) s = .next (s.answered (.refused 0x03 .badArgument))
      ∧ exec (.setMask set) s = .next (s.answered (.refused 0x04 .badArgument))))
  ∧ ∀ s : State,
    (s.attention = true ↔ ∃ k : EventKind, s.flagged k = true ∧ s.mtp.mask.getLsbD k.bit = true)
    ∧ ∀ k : EventKind, s.firstPending = some k.bit ↔
        (s.flagged k = true ∧ s.mtp.mask.getLsbD k.bit = true
          ∧ ∀ k' : EventKind, k'.bit < k.bit → ¬ (s.flagged k' = true ∧ s.mtp.mask.getLsbD k'.bit = true))

/-- The acting commands and WRITE CONFIG outside the part states that accept them are refused with WRONG_STATE and have no
effect (R178). In UNCONFIGURED a whole image begins to be written, once. Before that a transaction is judged (R176, R177, R187):
bits that are no multiple of 8, no byte at all, or a first byte of 0x00 give no command; a frame of a known code with its
arguments, its CRC-16 behind them and 0x00 for every byte of fill gives the command of the table; and any other frame is a
bad command frame of its first byte. -/
def Obligations.AcceptanceByPartState : Prop :=
  (let two (a : List Byte) : Half := BitVec.ofNat 16 ((a.getD 0 0).toNat + 256 * (a.getD 1 0).toNat)
   let set (a : List Byte) : BitVec 24 :=
     BitVec.ofNat 24 ((a.getD 0 0).toNat + 256 * (a.getD 1 0).toNat + 65536 * (a.getD 2 0).toNat)
   let table : List (Byte × Nat × (List Byte → Instr)) :=
     [(0x01, 0, fun _ => .readStatus), (0x02, 0, fun _ => .readEvents), (0x03, 3, fun a => .acknowledgeEvents (set a)),
      (0x04, 3, fun a => .setMask (set a)), (0x05, 1, fun a => .readQueue (a.getD 0 0)), (0x06, 0, fun _ => .readCrossing),
      (0x07, 1, fun a => .readSegment (a.getD 0 0)), (0x08, 1, fun a => .readNeighbour (a.getD 0 0)),
      (0x09, 0, fun _ => .readConfig), (0x10, 1, fun a => .closeArm (a.getD 0 0)), (0x11, 1, fun a => .openArm (a.getD 0 0)),
      (0x12, 0, fun _ => .stop), (0x13, 0, fun _ => .release),
      (0x14, 1, fun a => if a.getD 0 0 = 0x0F then .confirmClearCrossing else .confirmClearArm (a.getD 0 0)),
      (0x15, 2, fun a => .purgeCarrier (two a)), (0x16, 3, fun a => .setWalkway (two a) (a.getD 2 0)),
      (0x20, 184, fun a => .writeConfig a), (0x30, 0, fun _ => .restart)]
   let frame (code : Byte) (a : List Byte) (fill : Nat) : List Byte :=
     Layout.withCrc16 (code :: a) ++ List.replicate fill 0
   (∀ (bits : Nat) (sdi : List Byte), bits % 8 ≠ 0 ∨ sdi = [] ∨ sdi.head? = some 0 →
     transactionCommand bits sdi = .idleFrame bits)
   ∧ (∀ row ∈ table, ∀ (a : List Byte) (fill bits : Nat), a.length = row.2.1 → bits % 8 = 0 →
     transactionCommand bits (frame row.1 a fill) = row.2.2 a)
   ∧ ∀ (b : Byte) (rest : List Byte) (bits : Nat), b ≠ 0 → bits % 8 = 0 →
     (∀ row ∈ table, ∀ a fill, a.length = row.2.1 → b :: rest ≠ frame row.1 a fill) →
     transactionCommand bits (b :: rest) = .badCommandFrame b)
  ∧ ∀ s : State, s.scu.rstHeld = false →
    (∀ c : Instr, actingCommand c = true → s.part = .loading ∨ s.part = .unconfigured ∨ s.part = .settling →
      exec c s = .next (s.answered (.refused (actingCode c) .wrongState)))
    ∧ ∀ image : List Byte, image.length = 184 →
      (s.part = .unconfigured → s.scu.writing = none →
        exec (.writeConfig image) s = .next
          (({ s with scu := { s.scu with writing := some image } }).answered (.ok 0x20)))
      ∧ (s.part ≠ .unconfigured ∨ s.scu.writing ≠ none →
        exec (.writeConfig image) s = .next (s.answered (.refused 0x20 .wrongState)))

/-- CLOSE ARM and OPEN ARM (R3, R5). CLOSE ARM adds OPERATOR to the arm's closure cause set, and ends a designation that
arrives on the arm or leaves by it when the arm was open before (R3, R85). OPEN ARM empties the set and makes a round due
while the part grants (R75), unless DETECTOR is in it with a detector of the arm active. Both are refused with BAD_ARGUMENT
for an absent arm (R3, R5) and for no arm (R178). -/
def Obligations.CloseAndOpenArm : Prop :=
  ∀ (b : Byte) (s : State), s.scu.rstHeld = false → s.part.working = true →
    (4 ≤ b.toNat → Does (.closeArm b) s (s.answered (.refused 0x10 .badArgument))
      ∧ Does (.openArm b) s (s.answered (.refused 0x11 .badArgument)))
    ∧ ∀ i : Arm, b.toNat = i.val →
      let closed : State := { s with closures := s.closures.set i { s.closures.get i with operator := true } }
      (s.present i = false → Does (.closeArm b) s (s.answered (.refused 0x10 .badArgument))
        ∧ Does (.openArm b) s (s.answered (.refused 0x11 .badArgument)))
      ∧ (s.present i = true → ClosingEndsDesignation s i →
        Does (.closeArm b) s (closed.endOverdue.answered (.ok 0x10)))
      ∧ (s.present i = true → ¬ ClosingEndsDesignation s i → Does (.closeArm b) s (closed.answered (.ok 0x10)))
      ∧ (s.present i = true → (s.closures.get i).detector = true → s.detectorActive i = true →
        Does (.openArm b) s (s.answered (.refused 0x11 .notClear)))
      ∧ (s.present i = true → ¬ ((s.closures.get i).detector = true ∧ s.detectorActive i = true) →
        s.closed i = true →
        Does (.openArm b) s (({ s with
          closures := s.closures.set i ⟨false, false⟩
          jar := { s.jar with due := s.jar.due || s.granting } }).answered (.ok 0x11)))
      ∧ (s.present i = true → s.closed i = false → Does (.openArm b) s (s.answered (.ok 0x11)))

/-- SET WALKWAY stages P of 10 to 600 s and W of at most 120 s and changes nothing else; other values are refused with
BAD_ARGUMENT. CONFIRM CLEAR for the crossing empties the unmatched list, whose departures make the OPEN test of the walkway
(R145), though not in a hold or outside RUNNING, by the model's inference (log 11); and in RECOVERING it resolves the crossing,
where the interval timer starts in a working walkway unless the junction is held (R142, R172). -/
def Obligations.SetWalkwayAndConfirmCrossing : Prop :=
  ∀ s : State, s.scu.rstHeld = false → s.part.working = true →
    (∀ (p : Half) (w : Byte),
      (10 ≤ p.toNat → p.toNat ≤ 600 → w.toNat ≤ 120 →
        Does (.setWalkway p w) s
          (({ s with wkp := { s.wkp with stagedP := p.toNat, stagedW := w.toNat } }).answered (.ok 0x16)))
      ∧ (p.toNat < 10 ∨ 600 < p.toNat ∨ 120 < w.toNat →
        Does (.setWalkway p w) s (s.answered (.refused 0x16 .badArgument))))
    ∧ ∃ t, exec .confirmClearCrossing s = .next t ∧ t.xu.unmatched = [] ∧ t.xu.moves = s.xu.moves
        ∧ t.mtp = (s.answered (.ok 0x14)).mtp ∧ (∀ i, (t.seg i).e = (s.seg i).e)
        ∧ (s.part = .recovering → t.part = .running ∧ (∀ k, t.cell k ≠ .unknown)
            ∧ (∀ k, s.cell k ≠ .unknown → t.cell k = s.cell k) ∧ (s.held = false → t.jar.due = true))
        ∧ (s.part ≠ .recovering → t.part = s.part ∧ t.xu.cells = s.xu.cells ∧ WalkTested (s.walkOpens [] none) s t)
        ∧ (s.part = .recovering → t.wkp =
            if s.held = false ∧ s.walkWorking = true then { s.wkp with interval := .running 0 } else s.wkp)
        ∧ t.aqu = s.aqu ∧ t.closures = s.closures ∧ t.nbrs = s.nbrs

/-! ## Laws of the part -/

/-- The law of the crossing, the bounds, the law of the queues and the law of the grants hold at reset. -/
def Obligations.LawsHoldAtReset : Prop :=
  CrossingLaw State.reset ∧ Bounded State.reset ∧ QueueLaw State.reset ∧ GrantLaw State.reset

/-- Every step keeps the law of the crossing: no cell is ever held by two movement records, and none is HELD for no record.
Under that law two movement records never meet: their cell sets have no cell in common, and no two have the same exit arm. -/
def Obligations.EveryStepKeepsTheCrossingLaw : Prop :=
  (∀ s t : State, CrossingLaw s → step s = .next t → CrossingLaw t)
  ∧ ∀ (s : State) (i j : Arm) (m n : Movement), CrossingLaw s → i ≠ j → s.move i = some m → s.move j = some n →
    m.exit ≠ n.exit ∧ ∀ k, ¬ (k ∈ cellSet i m.exit ∧ k ∈ cellSet j n.exit)

/-- Every step keeps the bounds: at most four records in a queue, 16 items on a send list and four unmatched entries;
reservations and occupancy views of at most 15; walkway times in their ranges. -/
def Obligations.EveryStepKeepsTheBounds : Prop :=
  ∀ s t : State, Bounded s → step s = .next t → Bounded t

/-- Every step keeps the law of the queues: a record stands on its arrival arm's queue; and an overdue designation always
stands for the head of its arrival arm, WAITING, with the designated exit (R85). -/
def Obligations.EveryStepKeepsTheQueueLaw : Prop :=
  ∀ s t : State, QueueLaw s → step s = .next t → QueueLaw t

/-- Under the law of the queues every step keeps the law of the grants: no carrier ID is queued twice (R25); every GRANTED
entry of a carrier list has its GRANTED record for the same exit on the queue of its entry arm, and every GRANTED record its
entry; no list holds two GRANTED entries for one carrier; and a movement record stands in RUNNING and FAULTED only. -/
def Obligations.EveryStepKeepsTheGrantLaw : Prop :=
  ∀ s t : State, QueueLaw s → GrantLaw s → step s = .next t → GrantLaw t

/-- No movement record is created, and no carrier joins one, while the part is not RUNNING or the junction is held. -/
def Obligations.NoGrantWithoutRunningUnheld : Prop :=
  ∀ (c : Instr) (s t : State), s.granting = false → exec c s = .next t →
    ∀ i m, t.move i = some m → ∃ n, s.move i = some n ∧ n.exit = m.exit
      ∧ (m.carriers.map Entry.id).Sublist (n.carriers.map Entry.id)
end

