-- ==== Sys2Proof/Laws/State.lean ====
section
/-! SUPPORT. Four like things: reading after writing, mapping and building; and the fields after a restart. -/

namespace Sys2Proof

namespace Quad

variable {α β : Type}

@[simp] theorem get_fill (a : α) (i : Arm) : (Quad.fill a).get i = a := by fin_cases i <;> rfl

@[simp] theorem get_build (f : Arm → α) (i : Arm) : (Quad.build f).get i = f i := by fin_cases i <;> rfl

@[simp] theorem get_map (f : α → β) (q : Quad α) (i : Arm) : (q.map f).get i = f (q.get i) := by fin_cases i <;> rfl

@[simp] theorem get_set_same (q : Quad α) (i : Arm) (a : α) : (q.set i a).get i = a := by fin_cases i <;> rfl

theorem get_set_other (q : Quad α) {i j : Arm} (h : i ≠ j) (a : α) : (q.set i a).get j = q.get j := by
  fin_cases i <;> fin_cases j <;> first | rfl | exact absurd rfl h

theorem get_set (q : Quad α) (i j : Arm) (a : α) : (q.set i a).get j = if i = j then a else q.get j := by
  split
  · next h => subst h; simp
  · next h => exact get_set_other q h a

/-- Four things are what reading each gives. -/
theorem ext_get {p q : Quad α} (h : ∀ i, p.get i = q.get i) : p = q := by
  obtain ⟨a, b, c, d⟩ := p
  obtain ⟨a', b', c', d'⟩ := q
  have h0 : a = a' := h 0
  have h1 : b = b' := h 1
  have h2 : c = c' := h 2
  have h3 : d = d' := h 3
  rw [h0, h1, h2, h3]

@[simp] theorem set_get_same (q : Quad α) (i : Arm) : q.set i (q.get i) = q := by
  fin_cases i <;> rfl

end Quad

/-- The list of arms holds every arm. -/
@[simp] theorem Arm.mem_list (i : Arm) : i ∈ Arm.list := by fin_cases i <;> decide

end Sys2Proof
end

