-- ==== Sys2Proof/Laws/Frames.lean ====
section
/-! SUPPORT. What each shared operation leaves alone: one lemma per operation, which simp uses field by field. -/

namespace Sys2Proof.Machine

/-- A fold keeps what each of its steps keeps. -/
theorem foldl_keeps {σ α β : Type} (g : σ → β) (f : σ → α → σ) (h : ∀ s a, g (f s a) = g s) (l : List α) (s : σ) :
    g (l.foldl f s) = g s := by
  induction l generalizing s with
  | nil => rfl
  | cons a l ih => rw [List.foldl_cons, ih, h]

@[simp] theorem raise_keeps (k : EventKind) (s : State) :
    (s.raise k).scu = s.scu ∧ (s.raise k).aqu = s.aqu ∧ (s.raise k).closures = s.closures ∧ (s.raise k).xu = s.xu ∧
    (s.raise k).jar = s.jar ∧ (s.raise k).segs = s.segs ∧ (s.raise k).nbrs = s.nbrs ∧ (s.raise k).fli = s.fli ∧
    (s.raise k).wkp = s.wkp ∧ (s.raise k).hld = s.hld ∧ (s.raise k).now = s.now ∧ (s.raise k).pending = s.pending := by
  and_intros <;> rfl

@[simp] theorem trigger_keeps (s : State) :
    (s.trigger).scu = s.scu ∧ (s.trigger).aqu = s.aqu ∧ (s.trigger).closures = s.closures ∧ (s.trigger).xu = s.xu ∧
    (s.trigger).segs = s.segs ∧ (s.trigger).nbrs = s.nbrs ∧ (s.trigger).fli = s.fli ∧ (s.trigger).wkp = s.wkp ∧
    (s.trigger).hld = s.hld ∧ (s.trigger).mtp = s.mtp ∧ (s.trigger).now = s.now ∧ (s.trigger).pending = s.pending := by
  unfold State.trigger
  repeat' split
  all_goals simp

/-- The level of an input acts on the filters of the crossing unit and on the button alone. -/
@[simp] theorem senseInput_keeps (input : Input) (raw : Bool) (s : State) :
    (s.senseInput input raw).scu = s.scu ∧ (s.senseInput input raw).aqu = s.aqu ∧
    (s.senseInput input raw).closures = s.closures ∧ (s.senseInput input raw).xu.cells = s.xu.cells ∧
    (s.senseInput input raw).xu.moves = s.xu.moves ∧ (s.senseInput input raw).xu.unmatched = s.xu.unmatched ∧
    (s.senseInput input raw).jar = s.jar ∧ (s.senseInput input raw).segs = s.segs ∧
    (s.senseInput input raw).nbrs = s.nbrs ∧ (s.senseInput input raw).fli = s.fli ∧
    (s.senseInput input raw).hld = s.hld ∧ (s.senseInput input raw).mtp = s.mtp ∧
    (s.senseInput input raw).now = s.now ∧ (s.senseInput input raw).pending = s.pending := by
  unfold State.senseInput
  split
  · cases input <;> (and_intros <;> rfl)
  · simp

/-- A new raw level never moves the filtered level (R61). -/
@[simp] theorem sense_level (raw : Bool) (d : Debounce) : (d.sense raw).level = d.level := by
  unfold Debounce.sense
  repeat' split
  all_goals rfl

@[simp] theorem scheduleChange_keeps (s : State) :
    (s.scheduleChange).scu = s.scu ∧ (s.scheduleChange).aqu = s.aqu ∧ (s.scheduleChange).closures = s.closures ∧
    (s.scheduleChange).xu = s.xu ∧ (s.scheduleChange).jar = s.jar ∧ (s.scheduleChange).segs = s.segs ∧
    (s.scheduleChange).nbrs = s.nbrs ∧ (s.scheduleChange).wkp = s.wkp ∧ (s.scheduleChange).hld = s.hld ∧
    (s.scheduleChange).mtp = s.mtp ∧ (s.scheduleChange).now = s.now ∧ (s.scheduleChange).pending = s.pending := by
  and_intros <;> rfl

@[simp] theorem setPart_keeps (p : PartState) (s : State) :
    (s.setPart p).aqu = s.aqu ∧ (s.setPart p).closures = s.closures ∧ (s.setPart p).xu = s.xu ∧
    (s.setPart p).jar = s.jar ∧ (s.setPart p).segs = s.segs ∧ (s.setPart p).nbrs = s.nbrs ∧
    (s.setPart p).fli = s.fli ∧ (s.setPart p).wkp = s.wkp ∧ (s.setPart p).hld = s.hld ∧ (s.setPart p).mtp = s.mtp ∧
    (s.setPart p).now = s.now ∧ (s.setPart p).pending = s.pending := by
  and_intros <;> rfl

@[simp] theorem mapCells_keeps (f : Cell → Cell) (s : State) :
    (s.mapCells f).scu = s.scu ∧ (s.mapCells f).aqu = s.aqu ∧ (s.mapCells f).closures = s.closures ∧
    (s.mapCells f).jar = s.jar ∧ (s.mapCells f).segs = s.segs ∧ (s.mapCells f).nbrs = s.nbrs ∧
    (s.mapCells f).fli = s.fli ∧ (s.mapCells f).wkp = s.wkp ∧ (s.mapCells f).hld = s.hld ∧
    (s.mapCells f).mtp = s.mtp ∧ (s.mapCells f).now = s.now ∧ (s.mapCells f).pending = s.pending := by
  and_intros <;> rfl

@[simp] theorem mapCellsIn_keeps (set : List Arm) (f : Cell → Cell) (s : State) :
    (s.mapCellsIn set f).scu = s.scu ∧ (s.mapCellsIn set f).aqu = s.aqu ∧
    (s.mapCellsIn set f).closures = s.closures ∧ (s.mapCellsIn set f).jar = s.jar ∧
    (s.mapCellsIn set f).segs = s.segs ∧ (s.mapCellsIn set f).nbrs = s.nbrs ∧ (s.mapCellsIn set f).fli = s.fli ∧
    (s.mapCellsIn set f).wkp = s.wkp ∧ (s.mapCellsIn set f).hld = s.hld ∧ (s.mapCellsIn set f).mtp = s.mtp ∧
    (s.mapCellsIn set f).now = s.now ∧ (s.mapCellsIn set f).pending = s.pending := by
  and_intros <;> rfl

@[simp] theorem setMove_keeps (i : Arm) (m : Option Movement) (s : State) :
    (s.setMove i m).scu = s.scu ∧ (s.setMove i m).aqu = s.aqu ∧ (s.setMove i m).closures = s.closures ∧
    (s.setMove i m).jar = s.jar ∧ (s.setMove i m).segs = s.segs ∧ (s.setMove i m).nbrs = s.nbrs ∧
    (s.setMove i m).fli = s.fli ∧ (s.setMove i m).wkp = s.wkp ∧ (s.setMove i m).hld = s.hld ∧
    (s.setMove i m).mtp = s.mtp ∧ (s.setMove i m).now = s.now ∧ (s.setMove i m).pending = s.pending := by
  and_intros <;> rfl

@[simp] theorem setUnmatched_keeps (l : List Unmatched) (s : State) :
    (s.setUnmatched l).scu = s.scu ∧ (s.setUnmatched l).aqu = s.aqu ∧ (s.setUnmatched l).closures = s.closures ∧
    (s.setUnmatched l).jar = s.jar ∧ (s.setUnmatched l).segs = s.segs ∧ (s.setUnmatched l).nbrs = s.nbrs ∧
    (s.setUnmatched l).fli = s.fli ∧ (s.setUnmatched l).wkp = s.wkp ∧ (s.setUnmatched l).hld = s.hld ∧
    (s.setUnmatched l).mtp = s.mtp ∧ (s.setUnmatched l).now = s.now ∧ (s.setUnmatched l).pending = s.pending := by
  and_intros <;> rfl

@[simp] theorem addUnmatched_keeps (u : Unmatched) (s : State) :
    (s.addUnmatched u).scu = s.scu ∧ (s.addUnmatched u).aqu = s.aqu ∧ (s.addUnmatched u).closures = s.closures ∧
    (s.addUnmatched u).jar = s.jar ∧ (s.addUnmatched u).segs = s.segs ∧ (s.addUnmatched u).nbrs = s.nbrs ∧
    (s.addUnmatched u).fli = s.fli ∧ (s.addUnmatched u).wkp = s.wkp ∧ (s.addUnmatched u).hld = s.hld ∧
    (s.addUnmatched u).mtp = s.mtp ∧ (s.addUnmatched u).now = s.now ∧ (s.addUnmatched u).pending = s.pending := by
  unfold State.addUnmatched
  repeat' split
  all_goals simp

@[simp] theorem sendDue_keeps (i : Arm) (it : SendItem) (s : State) :
    (s.sendDue i it).scu = s.scu ∧ (s.sendDue i it).closures = s.closures ∧ (s.sendDue i it).xu = s.xu ∧
    (s.sendDue i it).jar = s.jar ∧ (s.sendDue i it).segs = s.segs ∧ (s.sendDue i it).nbrs = s.nbrs ∧
    (s.sendDue i it).fli = s.fli ∧ (s.sendDue i it).wkp = s.wkp ∧ (s.sendDue i it).hld = s.hld ∧
    (s.sendDue i it).mtp = s.mtp ∧ (s.sendDue i it).now = s.now ∧ (s.sendDue i it).pending = s.pending := by
  unfold State.sendDue
  repeat' split
  all_goals simp

@[simp] theorem clearanceDue_keeps (i : Arm) (id : CarrierId) (s : State) :
    (s.clearanceDue i id).scu = s.scu ∧ (s.clearanceDue i id).closures = s.closures ∧
    (s.clearanceDue i id).xu = s.xu ∧ (s.clearanceDue i id).jar = s.jar ∧ (s.clearanceDue i id).segs = s.segs ∧
    (s.clearanceDue i id).nbrs = s.nbrs ∧ (s.clearanceDue i id).fli = s.fli ∧ (s.clearanceDue i id).wkp = s.wkp ∧
    (s.clearanceDue i id).hld = s.hld ∧ (s.clearanceDue i id).mtp = s.mtp ∧ (s.clearanceDue i id).now = s.now ∧
    (s.clearanceDue i id).pending = s.pending := by
  unfold State.clearanceDue
  repeat' split
  all_goals simp

@[simp] theorem refusalDue_keeps (i : Arm) (id : CarrierId) (r : RefusalReason) (s : State) :
    (s.refusalDue i id r).scu = s.scu ∧ (s.refusalDue i id r).closures = s.closures ∧
    (s.refusalDue i id r).xu = s.xu ∧ (s.refusalDue i id r).jar = s.jar ∧ (s.refusalDue i id r).segs = s.segs ∧
    (s.refusalDue i id r).nbrs = s.nbrs ∧ (s.refusalDue i id r).fli = s.fli ∧ (s.refusalDue i id r).wkp = s.wkp ∧
    (s.refusalDue i id r).hld = s.hld ∧ (s.refusalDue i id r).mtp = s.mtp ∧ (s.refusalDue i id r).now = s.now ∧
    (s.refusalDue i id r).pending = s.pending := by
  unfold State.refusalDue
  simp

@[simp] theorem dropClearances_keeps (id : CarrierId) (s : State) :
    (s.dropClearances id).scu = s.scu ∧ (s.dropClearances id).closures = s.closures ∧
    (s.dropClearances id).xu = s.xu ∧ (s.dropClearances id).jar = s.jar ∧ (s.dropClearances id).segs = s.segs ∧
    (s.dropClearances id).nbrs = s.nbrs ∧ (s.dropClearances id).fli = s.fli ∧ (s.dropClearances id).wkp = s.wkp ∧
    (s.dropClearances id).hld = s.hld ∧ (s.dropClearances id).mtp = s.mtp ∧ (s.dropClearances id).now = s.now ∧
    (s.dropClearances id).pending = s.pending := by
  and_intros <;> rfl

@[simp] theorem huntLink_keeps (i : Arm) (s : State) :
    (s.huntLink i).scu = s.scu ∧ (s.huntLink i).closures = s.closures ∧ (s.huntLink i).xu = s.xu ∧
    (s.huntLink i).jar = s.jar ∧ (s.huntLink i).segs = s.segs ∧ (s.huntLink i).nbrs = s.nbrs ∧
    (s.huntLink i).fli = s.fli ∧ (s.huntLink i).wkp = s.wkp ∧ (s.huntLink i).hld = s.hld ∧
    (s.huntLink i).mtp = s.mtp ∧ (s.huntLink i).now = s.now ∧ (s.huntLink i).pending = s.pending := by
  and_intros <;> rfl

@[simp] theorem putQueue_keeps (i : Arm) (q : List Carrier) (s : State) :
    (s.putQueue i q).scu = s.scu ∧ (s.putQueue i q).closures = s.closures ∧ (s.putQueue i q).xu = s.xu ∧
    (s.putQueue i q).jar = s.jar ∧ (s.putQueue i q).segs = s.segs ∧ (s.putQueue i q).nbrs = s.nbrs ∧
    (s.putQueue i q).fli = s.fli ∧ (s.putQueue i q).wkp = s.wkp ∧ (s.putQueue i q).hld = s.hld ∧
    (s.putQueue i q).mtp = s.mtp ∧ (s.putQueue i q).now = s.now ∧ (s.putQueue i q).pending = s.pending := by
  and_intros <;> rfl

@[simp] theorem putSeg_keeps (i : Arm) (g : SegEnd) (s : State) :
    (s.putSeg i g).scu = s.scu ∧ (s.putSeg i g).aqu = s.aqu ∧ (s.putSeg i g).closures = s.closures ∧
    (s.putSeg i g).xu = s.xu ∧ (s.putSeg i g).jar = s.jar ∧ (s.putSeg i g).nbrs = s.nbrs ∧
    (s.putSeg i g).fli = s.fli ∧ (s.putSeg i g).wkp = s.wkp ∧ (s.putSeg i g).hld = s.hld ∧
    (s.putSeg i g).mtp = s.mtp ∧ (s.putSeg i g).now = s.now ∧ (s.putSeg i g).pending = s.pending := by
  and_intros <;> rfl

@[simp] theorem modSeg_keeps (i : Arm) (f : SegEnd → SegEnd) (s : State) :
    (s.modSeg i f).scu = s.scu ∧ (s.modSeg i f).aqu = s.aqu ∧ (s.modSeg i f).closures = s.closures ∧
    (s.modSeg i f).xu = s.xu ∧ (s.modSeg i f).jar = s.jar ∧ (s.modSeg i f).nbrs = s.nbrs ∧
    (s.modSeg i f).fli = s.fli ∧ (s.modSeg i f).wkp = s.wkp ∧ (s.modSeg i f).hld = s.hld ∧
    (s.modSeg i f).mtp = s.mtp ∧ (s.modSeg i f).now = s.now ∧ (s.modSeg i f).pending = s.pending := by
  and_intros <;> rfl

@[simp] theorem takeView_keeps (i : Arm) (v : Int) (s : State) :
    (s.takeView i v).scu = s.scu ∧ (s.takeView i v).aqu = s.aqu ∧ (s.takeView i v).closures = s.closures ∧
    (s.takeView i v).xu = s.xu ∧ (s.takeView i v).jar = s.jar ∧ (s.takeView i v).nbrs = s.nbrs ∧
    (s.takeView i v).fli = s.fli ∧ (s.takeView i v).wkp = s.wkp ∧ (s.takeView i v).hld = s.hld ∧
    (s.takeView i v).now = s.now ∧ (s.takeView i v).pending = s.pending := by
  unfold State.takeView
  repeat' split
  all_goals simp

@[simp] theorem retestView_keeps (i : Arm) (s : State) :
    (s.retestView i).scu = s.scu ∧ (s.retestView i).aqu = s.aqu ∧ (s.retestView i).closures = s.closures ∧
    (s.retestView i).xu = s.xu ∧ (s.retestView i).jar = s.jar ∧ (s.retestView i).nbrs = s.nbrs ∧
    (s.retestView i).fli = s.fli ∧ (s.retestView i).wkp = s.wkp ∧ (s.retestView i).hld = s.hld ∧
    (s.retestView i).now = s.now ∧ (s.retestView i).pending = s.pending := by
  unfold State.retestView
  simp

@[simp] theorem steer_keeps (n : Nat) (i : Arm) (s : State) :
    (s.steer n i).scu = s.scu ∧ (s.steer n i).aqu = s.aqu ∧ (s.steer n i).closures = s.closures ∧
    (s.steer n i).xu = s.xu ∧ (s.steer n i).jar = s.jar ∧ (s.steer n i).nbrs = s.nbrs ∧ (s.steer n i).fli = s.fli ∧
    (s.steer n i).wkp = s.wkp ∧ (s.steer n i).hld = s.hld ∧ (s.steer n i).mtp = s.mtp ∧ (s.steer n i).now = s.now ∧
    (s.steer n i).pending = s.pending := by
  induction n generalizing s with
  | zero => and_intros <;> rfl
  | succ n ih =>
    unfold State.steer
    split
    · simp
    · simp [ih]

@[simp] theorem evaluate_keeps (i : Arm) (s : State) :
    (s.evaluate i).scu = s.scu ∧ (s.evaluate i).aqu = s.aqu ∧ (s.evaluate i).closures = s.closures ∧
    (s.evaluate i).xu = s.xu ∧ (s.evaluate i).jar = s.jar ∧ (s.evaluate i).nbrs = s.nbrs ∧
    (s.evaluate i).fli = s.fli ∧ (s.evaluate i).wkp = s.wkp ∧ (s.evaluate i).hld = s.hld ∧
    (s.evaluate i).mtp = s.mtp ∧ (s.evaluate i).now = s.now ∧ (s.evaluate i).pending = s.pending := by
  unfold State.evaluate
  repeat' split
  all_goals simp

@[simp] theorem takeReservation_keeps (i : Arm) (s : State) :
    (s.takeReservation i).scu = s.scu ∧ (s.takeReservation i).aqu = s.aqu ∧
    (s.takeReservation i).closures = s.closures ∧ (s.takeReservation i).xu = s.xu ∧
    (s.takeReservation i).jar = s.jar ∧ (s.takeReservation i).nbrs = s.nbrs ∧ (s.takeReservation i).fli = s.fli ∧
    (s.takeReservation i).wkp = s.wkp ∧ (s.takeReservation i).hld = s.hld ∧ (s.takeReservation i).now = s.now ∧
    (s.takeReservation i).pending = s.pending := by
  unfold State.takeReservation
  simp

@[simp] theorem releaseReservation_keeps (i : Arm) (s : State) :
    (s.releaseReservation i).scu = s.scu ∧ (s.releaseReservation i).aqu = s.aqu ∧
    (s.releaseReservation i).closures = s.closures ∧ (s.releaseReservation i).xu = s.xu ∧
    (s.releaseReservation i).jar = s.jar ∧ (s.releaseReservation i).nbrs = s.nbrs ∧
    (s.releaseReservation i).fli = s.fli ∧ (s.releaseReservation i).wkp = s.wkp ∧
    (s.releaseReservation i).hld = s.hld ∧ (s.releaseReservation i).now = s.now ∧
    (s.releaseReservation i).pending = s.pending := by
  unfold State.releaseReservation
  repeat' split
  all_goals simp

@[simp] theorem countE_keeps (i : Arm) (b : Bool) (s : State) :
    (s.countE i b).scu = s.scu ∧ (s.countE i b).aqu = s.aqu ∧ (s.countE i b).closures = s.closures ∧
    (s.countE i b).xu = s.xu ∧ (s.countE i b).jar = s.jar ∧ (s.countE i b).nbrs = s.nbrs ∧
    (s.countE i b).fli = s.fli ∧ (s.countE i b).wkp = s.wkp ∧ (s.countE i b).hld = s.hld ∧
    (s.countE i b).now = s.now ∧ (s.countE i b).pending = s.pending := by
  unfold State.countE
  simp

@[simp] theorem countX_keeps (i : Arm) (s : State) :
    (s.countX i).scu = s.scu ∧ (s.countX i).aqu = s.aqu ∧ (s.countX i).closures = s.closures ∧
    (s.countX i).xu = s.xu ∧ (s.countX i).jar = s.jar ∧ (s.countX i).nbrs = s.nbrs ∧ (s.countX i).fli = s.fli ∧
    (s.countX i).wkp = s.wkp ∧ (s.countX i).hld = s.hld ∧ (s.countX i).now = s.now ∧ (s.countX i).pending = s.pending := by
  unfold State.countX
  simp

@[simp] theorem applyDeltas_keeps (i : Arm) (e : RawEntry) (s : State) :
    (s.applyDeltas i e).scu = s.scu ∧ (s.applyDeltas i e).aqu = s.aqu ∧ (s.applyDeltas i e).closures = s.closures ∧
    (s.applyDeltas i e).xu = s.xu ∧ (s.applyDeltas i e).jar = s.jar ∧ (s.applyDeltas i e).nbrs = s.nbrs ∧
    (s.applyDeltas i e).fli = s.fli ∧ (s.applyDeltas i e).wkp = s.wkp ∧ (s.applyDeltas i e).hld = s.hld ∧
    (s.applyDeltas i e).now = s.now ∧ (s.applyDeltas i e).pending = s.pending := by
  unfold State.applyDeltas
  dsimp only
  repeat' split
  all_goals simp

@[simp] theorem storeHeard_keeps (i : Arm) (e : RawEntry) (s : State) :
    (s.storeHeard i e).scu = s.scu ∧ (s.storeHeard i e).aqu = s.aqu ∧ (s.storeHeard i e).closures = s.closures ∧
    (s.storeHeard i e).xu = s.xu ∧ (s.storeHeard i e).jar = s.jar ∧ (s.storeHeard i e).nbrs = s.nbrs ∧
    (s.storeHeard i e).fli = s.fli ∧ (s.storeHeard i e).wkp = s.wkp ∧ (s.storeHeard i e).hld = s.hld ∧
    (s.storeHeard i e).now = s.now ∧ (s.storeHeard i e).pending = s.pending := by
  unfold State.storeHeard
  dsimp only
  repeat' split
  all_goals simp

@[simp] theorem takeEntryBase_keeps (i : Arm) (k : EntryKind) (ep : Byte) (e : RawEntry) (s : State) :
    (s.takeEntryBase i k ep e).scu = s.scu ∧ (s.takeEntryBase i k ep e).aqu = s.aqu ∧
    (s.takeEntryBase i k ep e).closures = s.closures ∧ (s.takeEntryBase i k ep e).xu = s.xu ∧
    (s.takeEntryBase i k ep e).jar = s.jar ∧ (s.takeEntryBase i k ep e).nbrs = s.nbrs ∧
    (s.takeEntryBase i k ep e).fli = s.fli ∧ (s.takeEntryBase i k ep e).wkp = s.wkp ∧
    (s.takeEntryBase i k ep e).hld = s.hld ∧ (s.takeEntryBase i k ep e).now = s.now ∧
    (s.takeEntryBase i k ep e).pending = s.pending := by
  unfold State.takeEntryBase
  dsimp only
  repeat' split
  all_goals simp

@[simp] theorem follow_keeps (i : Arm) (e : RawEntry) (s : State) :
    (s.follow i e).scu = s.scu ∧ (s.follow i e).aqu = s.aqu ∧ (s.follow i e).closures = s.closures ∧
    (s.follow i e).xu = s.xu ∧ (s.follow i e).jar = s.jar ∧ (s.follow i e).nbrs = s.nbrs ∧
    (s.follow i e).fli = s.fli ∧ (s.follow i e).wkp = s.wkp ∧ (s.follow i e).hld = s.hld ∧
    (s.follow i e).now = s.now ∧ (s.follow i e).pending = s.pending := by
  unfold State.follow
  repeat' split
  all_goals simp

@[simp] theorem takeEntryRole_keeps (i : Arm) (e : RawEntry) (s : State) :
    (s.takeEntryRole i e).scu = s.scu ∧ (s.takeEntryRole i e).aqu = s.aqu ∧
    (s.takeEntryRole i e).closures = s.closures ∧ (s.takeEntryRole i e).xu = s.xu ∧
    (s.takeEntryRole i e).jar = s.jar ∧ (s.takeEntryRole i e).nbrs = s.nbrs ∧ (s.takeEntryRole i e).fli = s.fli ∧
    (s.takeEntryRole i e).wkp = s.wkp ∧ (s.takeEntryRole i e).hld = s.hld ∧ (s.takeEntryRole i e).now = s.now ∧
    (s.takeEntryRole i e).pending = s.pending := by
  unfold State.takeEntryRole
  repeat' split
  all_goals simp

@[simp] theorem clearIsolation_keeps (i : Arm) (s : State) :
    (s.clearIsolation i).scu = s.scu ∧ (s.clearIsolation i).aqu = s.aqu ∧
    (s.clearIsolation i).closures = s.closures ∧ (s.clearIsolation i).xu = s.xu ∧ (s.clearIsolation i).jar = s.jar ∧
    (s.clearIsolation i).nbrs = s.nbrs ∧ (s.clearIsolation i).fli = s.fli ∧ (s.clearIsolation i).wkp = s.wkp ∧
    (s.clearIsolation i).hld = s.hld ∧ (s.clearIsolation i).mtp = s.mtp ∧ (s.clearIsolation i).now = s.now ∧
    (s.clearIsolation i).pending = s.pending := by
  unfold State.clearIsolation
  repeat' split
  all_goals simp

@[simp] theorem takeEntry_keeps (i : Arm) (k : EntryKind) (ep : Byte) (e : RawEntry) (s : State) :
    (s.takeEntry i k ep e).scu = s.scu ∧ (s.takeEntry i k ep e).aqu = s.aqu ∧
    (s.takeEntry i k ep e).closures = s.closures ∧ (s.takeEntry i k ep e).xu = s.xu ∧
    (s.takeEntry i k ep e).jar = s.jar ∧ (s.takeEntry i k ep e).nbrs = s.nbrs ∧ (s.takeEntry i k ep e).fli = s.fli ∧
    (s.takeEntry i k ep e).wkp = s.wkp ∧ (s.takeEntry i k ep e).hld = s.hld ∧ (s.takeEntry i k ep e).now = s.now ∧
    (s.takeEntry i k ep e).pending = s.pending := by
  unfold State.takeEntry
  simp

@[simp] theorem isolate_keeps (i : Arm) (s : State) :
    (s.isolate i).scu = s.scu ∧ (s.isolate i).aqu = s.aqu ∧ (s.isolate i).closures = s.closures ∧
    (s.isolate i).xu = s.xu ∧ (s.isolate i).jar = s.jar ∧ (s.isolate i).nbrs = s.nbrs ∧ (s.isolate i).fli = s.fli ∧
    (s.isolate i).wkp = s.wkp ∧ (s.isolate i).hld = s.hld ∧ (s.isolate i).mtp = s.mtp ∧ (s.isolate i).now = s.now ∧
    (s.isolate i).pending = s.pending := by
  and_intros <;> rfl

@[simp] theorem proveQuiet_keeps (i : Arm) (s : State) :
    (s.proveQuiet i).scu = s.scu ∧ (s.proveQuiet i).aqu = s.aqu ∧ (s.proveQuiet i).closures = s.closures ∧
    (s.proveQuiet i).xu = s.xu ∧ (s.proveQuiet i).jar = s.jar ∧ (s.proveQuiet i).nbrs = s.nbrs ∧
    (s.proveQuiet i).fli = s.fli ∧ (s.proveQuiet i).wkp = s.wkp ∧ (s.proveQuiet i).hld = s.hld ∧
    (s.proveQuiet i).mtp = s.mtp ∧ (s.proveQuiet i).now = s.now ∧ (s.proveQuiet i).pending = s.pending := by
  unfold State.proveQuiet
  repeat' split
  all_goals simp

@[simp] theorem confirmArm_keeps (i : Arm) (s : State) :
    (s.confirmArm i).scu = s.scu ∧ (s.confirmArm i).aqu = s.aqu ∧ (s.confirmArm i).closures = s.closures ∧
    (s.confirmArm i).xu = s.xu ∧ (s.confirmArm i).jar = s.jar ∧ (s.confirmArm i).nbrs = s.nbrs ∧
    (s.confirmArm i).wkp = s.wkp ∧ (s.confirmArm i).hld = s.hld ∧ (s.confirmArm i).mtp = s.mtp ∧
    (s.confirmArm i).now = s.now ∧ (s.confirmArm i).pending = s.pending := by
  unfold State.confirmArm
  dsimp only
  repeat' split
  all_goals simp

@[simp] theorem closeLimits_keeps (s : State) :
    (s.closeLimits).scu = s.scu ∧ (s.closeLimits).aqu = s.aqu ∧ (s.closeLimits).closures = s.closures ∧
    (s.closeLimits).xu = s.xu ∧ (s.closeLimits).jar = s.jar ∧ (s.closeLimits).nbrs = s.nbrs ∧
    (s.closeLimits).fli = s.fli ∧ (s.closeLimits).wkp = s.wkp ∧ (s.closeLimits).hld = s.hld ∧
    (s.closeLimits).mtp = s.mtp ∧ (s.closeLimits).now = s.now ∧ (s.closeLimits).pending = s.pending := by
  and_intros <;> rfl

@[simp] theorem modWkp_keeps (f : Wkp → Wkp) (s : State) :
    (s.modWkp f).scu = s.scu ∧ (s.modWkp f).aqu = s.aqu ∧ (s.modWkp f).closures = s.closures ∧
    (s.modWkp f).xu = s.xu ∧ (s.modWkp f).jar = s.jar ∧ (s.modWkp f).segs = s.segs ∧ (s.modWkp f).nbrs = s.nbrs ∧
    (s.modWkp f).fli = s.fli ∧ (s.modWkp f).hld = s.hld ∧ (s.modWkp f).mtp = s.mtp ∧ (s.modWkp f).now = s.now ∧
    (s.modWkp f).pending = s.pending := by
  and_intros <;> rfl

@[simp] theorem startInterval_keeps (s : State) :
    (s.startInterval).scu = s.scu ∧ (s.startInterval).aqu = s.aqu ∧ (s.startInterval).closures = s.closures ∧
    (s.startInterval).xu = s.xu ∧ (s.startInterval).jar = s.jar ∧ (s.startInterval).segs = s.segs ∧
    (s.startInterval).nbrs = s.nbrs ∧ (s.startInterval).fli = s.fli ∧ (s.startInterval).hld = s.hld ∧
    (s.startInterval).mtp = s.mtp ∧ (s.startInterval).now = s.now ∧ (s.startInterval).pending = s.pending := by
  unfold State.startInterval
  repeat' split
  all_goals simp

@[simp] theorem suspendWalkway_keeps (s : State) :
    (s.suspendWalkway).scu = s.scu ∧ (s.suspendWalkway).aqu = s.aqu ∧ (s.suspendWalkway).closures = s.closures ∧
    (s.suspendWalkway).xu = s.xu ∧ (s.suspendWalkway).jar = s.jar ∧ (s.suspendWalkway).segs = s.segs ∧
    (s.suspendWalkway).nbrs = s.nbrs ∧ (s.suspendWalkway).fli = s.fli ∧ (s.suspendWalkway).hld = s.hld ∧
    (s.suspendWalkway).mtp = s.mtp ∧ (s.suspendWalkway).now = s.now ∧ (s.suspendWalkway).pending = s.pending := by
  and_intros <;> rfl

@[simp] theorem openTest_keeps (s : State) :
    (s.openTest).scu = s.scu ∧ (s.openTest).aqu = s.aqu ∧ (s.openTest).closures = s.closures ∧
    (s.openTest).xu = s.xu ∧ (s.openTest).segs = s.segs ∧ (s.openTest).nbrs = s.nbrs ∧ (s.openTest).fli = s.fli ∧
    (s.openTest).hld = s.hld ∧ (s.openTest).mtp = s.mtp ∧ (s.openTest).now = s.now ∧ (s.openTest).pending = s.pending := by
  unfold State.openTest
  repeat' split
  all_goals simp

@[simp] theorem latchPoint_keeps (s : State) :
    (s.latchPoint).scu = s.scu ∧ (s.latchPoint).aqu = s.aqu ∧ (s.latchPoint).closures = s.closures ∧
    (s.latchPoint).xu = s.xu ∧ (s.latchPoint).segs = s.segs ∧ (s.latchPoint).nbrs = s.nbrs ∧
    (s.latchPoint).fli = s.fli ∧ (s.latchPoint).hld = s.hld ∧ (s.latchPoint).mtp = s.mtp ∧
    (s.latchPoint).now = s.now ∧ (s.latchPoint).pending = s.pending := by
  unfold State.latchPoint
  dsimp only
  repeat' split
  all_goals simp

@[simp] theorem pressButton_keeps (s : State) :
    (s.pressButton).scu = s.scu ∧ (s.pressButton).aqu = s.aqu ∧ (s.pressButton).closures = s.closures ∧
    (s.pressButton).xu = s.xu ∧ (s.pressButton).segs = s.segs ∧ (s.pressButton).nbrs = s.nbrs ∧
    (s.pressButton).fli = s.fli ∧ (s.pressButton).hld = s.hld ∧ (s.pressButton).mtp = s.mtp ∧
    (s.pressButton).now = s.now ∧ (s.pressButton).pending = s.pending := by
  unfold State.pressButton
  dsimp only
  repeat' split
  all_goals simp

@[simp] theorem modTx_keeps (f : Transmitter → Transmitter) (s : State) :
    (s.modTx f).scu = s.scu ∧ (s.modTx f).aqu = s.aqu ∧ (s.modTx f).closures = s.closures ∧ (s.modTx f).xu = s.xu ∧
    (s.modTx f).jar = s.jar ∧ (s.modTx f).segs = s.segs ∧ (s.modTx f).nbrs = s.nbrs ∧ (s.modTx f).wkp = s.wkp ∧
    (s.modTx f).hld = s.hld ∧ (s.modTx f).mtp = s.mtp ∧ (s.modTx f).now = s.now ∧ (s.modTx f).pending = s.pending := by
  and_intros <;> rfl

@[simp] theorem modRx_keeps (f : Receiver → Receiver) (s : State) :
    (s.modRx f).scu = s.scu ∧ (s.modRx f).aqu = s.aqu ∧ (s.modRx f).closures = s.closures ∧ (s.modRx f).xu = s.xu ∧
    (s.modRx f).jar = s.jar ∧ (s.modRx f).segs = s.segs ∧ (s.modRx f).nbrs = s.nbrs ∧ (s.modRx f).wkp = s.wkp ∧
    (s.modRx f).hld = s.hld ∧ (s.modRx f).mtp = s.mtp ∧ (s.modRx f).now = s.now ∧ (s.modRx f).pending = s.pending := by
  and_intros <;> rfl

@[simp] theorem reportDue_keeps (s : State) :
    (s.reportDue).scu = s.scu ∧ (s.reportDue).aqu = s.aqu ∧ (s.reportDue).closures = s.closures ∧
    (s.reportDue).xu = s.xu ∧ (s.reportDue).jar = s.jar ∧ (s.reportDue).segs = s.segs ∧ (s.reportDue).nbrs = s.nbrs ∧
    (s.reportDue).wkp = s.wkp ∧ (s.reportDue).hld = s.hld ∧ (s.reportDue).mtp = s.mtp ∧ (s.reportDue).now = s.now ∧
    (s.reportDue).pending = s.pending := by
  and_intros <;> rfl

@[simp] theorem pokeReport_keeps (s : State) :
    (s.pokeReport).scu = s.scu ∧ (s.pokeReport).aqu = s.aqu ∧ (s.pokeReport).closures = s.closures ∧
    (s.pokeReport).xu = s.xu ∧ (s.pokeReport).jar = s.jar ∧ (s.pokeReport).segs = s.segs ∧
    (s.pokeReport).nbrs = s.nbrs ∧ (s.pokeReport).wkp = s.wkp ∧ (s.pokeReport).hld = s.hld ∧
    (s.pokeReport).mtp = s.mtp ∧ (s.pokeReport).now = s.now ∧ (s.pokeReport).pending = s.pending := by
  unfold State.pokeReport
  repeat' split
  all_goals simp

@[simp] theorem startReports_keeps (s : State) :
    (s.startReports).scu = s.scu ∧ (s.startReports).aqu = s.aqu ∧ (s.startReports).closures = s.closures ∧
    (s.startReports).xu = s.xu ∧ (s.startReports).jar = s.jar ∧ (s.startReports).segs = s.segs ∧
    (s.startReports).nbrs = s.nbrs ∧ (s.startReports).wkp = s.wkp ∧ (s.startReports).hld = s.hld ∧
    (s.startReports).mtp = s.mtp ∧ (s.startReports).now = s.now ∧ (s.startReports).pending = s.pending := by
  unfold State.startReports
  simp

@[simp] theorem endOverdue_keeps (s : State) :
    (s.endOverdue).scu = s.scu ∧ (s.endOverdue).closures = s.closures ∧ (s.endOverdue).segs = s.segs ∧
    (s.endOverdue).nbrs = s.nbrs ∧ (s.endOverdue).fli = s.fli ∧ (s.endOverdue).wkp = s.wkp ∧
    (s.endOverdue).hld = s.hld ∧ (s.endOverdue).mtp = s.mtp ∧ (s.endOverdue).now = s.now ∧
    (s.endOverdue).pending = s.pending := by
  unfold State.endOverdue
  dsimp only
  repeat' split
  all_goals simp

@[simp] theorem checkOverdue_keeps (s : State) :
    (s.checkOverdue).scu = s.scu ∧ (s.checkOverdue).closures = s.closures ∧ (s.checkOverdue).segs = s.segs ∧
    (s.checkOverdue).nbrs = s.nbrs ∧ (s.checkOverdue).fli = s.fli ∧ (s.checkOverdue).wkp = s.wkp ∧
    (s.checkOverdue).hld = s.hld ∧ (s.checkOverdue).mtp = s.mtp ∧ (s.checkOverdue).now = s.now ∧
    (s.checkOverdue).pending = s.pending := by
  unfold State.checkOverdue
  repeat' split
  all_goals simp

@[simp] theorem noteDemand_keeps (old s : State) :
    (State.noteDemand old s).scu = s.scu ∧ (State.noteDemand old s).aqu = s.aqu
    ∧ (State.noteDemand old s).closures = s.closures ∧ (State.noteDemand old s).xu = s.xu
    ∧ (State.noteDemand old s).jar = s.jar ∧ (State.noteDemand old s).nbrs = s.nbrs
    ∧ (State.noteDemand old s).fli = s.fli ∧ (State.noteDemand old s).wkp = s.wkp
    ∧ (State.noteDemand old s).hld = s.hld ∧ (State.noteDemand old s).mtp = s.mtp
    ∧ (State.noteDemand old s).now = s.now ∧ (State.noteDemand old s).pending = s.pending := by
  and_intros <;> exact foldl_keeps _ _ (fun t a => by split <;> simp) _ _

@[simp] theorem onQueue_keeps (i : Arm) (f : List Carrier → List Carrier) (s : State) :
    (s.onQueue i f).scu = s.scu ∧ (s.onQueue i f).closures = s.closures ∧ (s.onQueue i f).nbrs = s.nbrs ∧
    (s.onQueue i f).fli = s.fli ∧ (s.onQueue i f).wkp = s.wkp ∧ (s.onQueue i f).hld = s.hld ∧
    (s.onQueue i f).mtp = s.mtp ∧ (s.onQueue i f).now = s.now ∧ (s.onQueue i f).pending = s.pending := by
  unfold State.onQueue
  repeat' split
  all_goals simp

@[simp] theorem onRecord_keeps (i : Arm) (id : CarrierId) (f : Carrier → Carrier) (s : State) :
    (s.onRecord i id f).scu = s.scu ∧ (s.onRecord i id f).closures = s.closures ∧ (s.onRecord i id f).nbrs = s.nbrs ∧
    (s.onRecord i id f).fli = s.fli ∧ (s.onRecord i id f).wkp = s.wkp ∧ (s.onRecord i id f).hld = s.hld ∧
    (s.onRecord i id f).mtp = s.mtp ∧ (s.onRecord i id f).now = s.now ∧ (s.onRecord i id f).pending = s.pending := by
  unfold State.onRecord
  simp

@[simp] theorem removeRecord_keeps (i : Arm) (id : CarrierId) (s : State) :
    (s.removeRecord i id).scu = s.scu ∧ (s.removeRecord i id).closures = s.closures ∧
    (s.removeRecord i id).nbrs = s.nbrs ∧ (s.removeRecord i id).fli = s.fli ∧ (s.removeRecord i id).wkp = s.wkp ∧
    (s.removeRecord i id).hld = s.hld ∧ (s.removeRecord i id).mtp = s.mtp ∧ (s.removeRecord i id).now = s.now ∧
    (s.removeRecord i id).pending = s.pending := by
  unfold State.removeRecord
  simp

@[simp] theorem endMovement_keeps (i j : Arm) (s : State) :
    (s.endMovement i j).scu = s.scu ∧ (s.endMovement i j).aqu = s.aqu ∧ (s.endMovement i j).closures = s.closures ∧
    (s.endMovement i j).segs = s.segs ∧ (s.endMovement i j).nbrs = s.nbrs ∧ (s.endMovement i j).fli = s.fli ∧
    (s.endMovement i j).hld = s.hld ∧ (s.endMovement i j).mtp = s.mtp ∧ (s.endMovement i j).now = s.now ∧
    (s.endMovement i j).pending = s.pending := by
  unfold State.endMovement
  simp

@[simp] theorem withdrawGrant_keeps (id : CarrierId) (s : State) :
    (s.withdrawGrant id).scu = s.scu ∧ (s.withdrawGrant id).aqu = s.aqu ∧
    (s.withdrawGrant id).closures = s.closures ∧ (s.withdrawGrant id).nbrs = s.nbrs ∧
    (s.withdrawGrant id).fli = s.fli ∧ (s.withdrawGrant id).hld = s.hld ∧ (s.withdrawGrant id).now = s.now ∧
    (s.withdrawGrant id).pending = s.pending := by
  unfold State.withdrawGrant
  dsimp only
  repeat' split
  all_goals simp

@[simp] theorem finishGrant_keeps (c : Carrier) (s : State) :
    (s.finishGrant c).scu = s.scu ∧ (s.finishGrant c).closures = s.closures ∧ (s.finishGrant c).nbrs = s.nbrs ∧
    (s.finishGrant c).fli = s.fli ∧ (s.finishGrant c).wkp = s.wkp ∧ (s.finishGrant c).hld = s.hld ∧
    (s.finishGrant c).now = s.now ∧ (s.finishGrant c).pending = s.pending := by
  unfold State.finishGrant
  simp

@[simp] theorem executeGrant_keeps (c : Carrier) (b : Bool) (s : State) :
    (s.executeGrant c b).scu = s.scu ∧ (s.executeGrant c b).closures = s.closures ∧
    (s.executeGrant c b).nbrs = s.nbrs ∧ (s.executeGrant c b).fli = s.fli ∧ (s.executeGrant c b).wkp = s.wkp ∧
    (s.executeGrant c b).hld = s.hld ∧ (s.executeGrant c b).now = s.now ∧ (s.executeGrant c b).pending = s.pending := by
  unfold State.executeGrant
  repeat' split
  all_goals simp

@[simp] theorem executeFollowOn_keeps (c : Carrier) (s : State) :
    (s.executeFollowOn c).scu = s.scu ∧ (s.executeFollowOn c).closures = s.closures ∧
    (s.executeFollowOn c).nbrs = s.nbrs ∧ (s.executeFollowOn c).fli = s.fli ∧ (s.executeFollowOn c).wkp = s.wkp ∧
    (s.executeFollowOn c).hld = s.hld ∧ (s.executeFollowOn c).now = s.now ∧ (s.executeFollowOn c).pending = s.pending := by
  unfold State.executeFollowOn
  repeat' split
  all_goals simp

@[simp] theorem lapse_keeps (id : CarrierId) (s : State) :
    (s.lapse id).scu = s.scu ∧ (s.lapse id).closures = s.closures ∧ (s.lapse id).nbrs = s.nbrs ∧
    (s.lapse id).fli = s.fli ∧ (s.lapse id).hld = s.hld ∧ (s.lapse id).now = s.now ∧ (s.lapse id).pending = s.pending := by
  unfold State.lapse
  repeat' split
  all_goals simp

@[simp] theorem mapEntries_keeps (i : Arm) (f : Entry → Entry) (s : State) :
    (s.mapEntries i f).scu = s.scu ∧ (s.mapEntries i f).aqu = s.aqu ∧ (s.mapEntries i f).closures = s.closures ∧
    (s.mapEntries i f).jar = s.jar ∧ (s.mapEntries i f).segs = s.segs ∧ (s.mapEntries i f).nbrs = s.nbrs ∧
    (s.mapEntries i f).fli = s.fli ∧ (s.mapEntries i f).wkp = s.wkp ∧ (s.mapEntries i f).hld = s.hld ∧
    (s.mapEntries i f).mtp = s.mtp ∧ (s.mapEntries i f).now = s.now ∧ (s.mapEntries i f).pending = s.pending := by
  unfold State.mapEntries
  repeat' split
  all_goals simp

@[simp] theorem exitRelease_keeps (j : Arm) (s : State) :
    (s.exitRelease j).scu = s.scu ∧ (s.exitRelease j).aqu = s.aqu ∧ (s.exitRelease j).closures = s.closures ∧
    (s.exitRelease j).nbrs = s.nbrs ∧ (s.exitRelease j).fli = s.fli ∧ (s.exitRelease j).hld = s.hld ∧
    (s.exitRelease j).now = s.now ∧ (s.exitRelease j).pending = s.pending := by
  unfold State.exitRelease
  dsimp only
  repeat' split
  all_goals simp

@[simp] theorem modHld_keeps (f : Hld → Hld) (s : State) :
    (s.modHld f).scu = s.scu ∧ (s.modHld f).aqu = s.aqu ∧ (s.modHld f).closures = s.closures ∧
    (s.modHld f).xu = s.xu ∧ (s.modHld f).jar = s.jar ∧ (s.modHld f).segs = s.segs ∧ (s.modHld f).nbrs = s.nbrs ∧
    (s.modHld f).fli = s.fli ∧ (s.modHld f).wkp = s.wkp ∧ (s.modHld f).mtp = s.mtp ∧ (s.modHld f).now = s.now ∧
    (s.modHld f).pending = s.pending := by
  and_intros <;> rfl

@[simp] theorem clearanceAll_keeps (s : State) :
    (s.clearanceAll).scu = s.scu ∧ (s.clearanceAll).closures = s.closures ∧ (s.clearanceAll).xu = s.xu ∧
    (s.clearanceAll).jar = s.jar ∧ (s.clearanceAll).segs = s.segs ∧ (s.clearanceAll).nbrs = s.nbrs ∧
    (s.clearanceAll).fli = s.fli ∧ (s.clearanceAll).wkp = s.wkp ∧ (s.clearanceAll).hld = s.hld ∧
    (s.clearanceAll).mtp = s.mtp ∧ (s.clearanceAll).now = s.now ∧ (s.clearanceAll).pending = s.pending := by
  and_intros <;> exact foldl_keeps _ _ (fun t a => by exact foldl_keeps _ _ (fun u c => by simp) _ _) _ _

@[simp] theorem dropRound_keeps (s : State) :
    (s.dropRound).scu = s.scu ∧ (s.dropRound).aqu = s.aqu ∧ (s.dropRound).closures = s.closures ∧
    (s.dropRound).xu = s.xu ∧ (s.dropRound).segs = s.segs ∧ (s.dropRound).nbrs = s.nbrs ∧ (s.dropRound).fli = s.fli ∧
    (s.dropRound).wkp = s.wkp ∧ (s.dropRound).hld = s.hld ∧ (s.dropRound).mtp = s.mtp ∧ (s.dropRound).now = s.now ∧
    (s.dropRound).pending = s.pending := by
  and_intros <;> rfl

@[simp] theorem holdEntryGrant_keeps (i : Arm) (s : State) (e : Entry) :
    (State.holdEntryGrant i s e).scu = s.scu ∧ (State.holdEntryGrant i s e).closures = s.closures
    ∧ (State.holdEntryGrant i s e).nbrs = s.nbrs ∧ (State.holdEntryGrant i s e).fli = s.fli
    ∧ (State.holdEntryGrant i s e).hld = s.hld ∧ (State.holdEntryGrant i s e).now = s.now
    ∧ (State.holdEntryGrant i s e).pending = s.pending := by
  unfold State.holdEntryGrant
  repeat' split
  all_goals simp

@[simp] theorem holdGrants_keeps (s : State) :
    (s.holdGrants).scu = s.scu ∧ (s.holdGrants).closures = s.closures ∧ (s.holdGrants).nbrs = s.nbrs ∧
    (s.holdGrants).fli = s.fli ∧ (s.holdGrants).hld = s.hld ∧ (s.holdGrants).now = s.now ∧
    (s.holdGrants).pending = s.pending := by
  and_intros <;> exact foldl_keeps _ _ (fun t a => by
    split
    · rfl
    · exact foldl_keeps _ _ (fun u e => by simp) _ _) _ _

@[simp] theorem holdEntry_keeps (s : State) :
    (s.holdEntry).scu = s.scu ∧ (s.holdEntry).closures = s.closures ∧ (s.holdEntry).nbrs = s.nbrs ∧
    (s.holdEntry).fli = s.fli ∧ (s.holdEntry).hld = s.hld ∧ (s.holdEntry).now = s.now ∧
    (s.holdEntry).pending = s.pending := by
  unfold State.holdEntry
  dsimp only
  repeat' split
  all_goals simp

@[simp] theorem addToHold_keeps (c : HoldCause) (s : State) :
    (s.addToHold c).scu = s.scu ∧ (s.addToHold c).aqu = s.aqu ∧ (s.addToHold c).closures = s.closures ∧
    (s.addToHold c).jar = s.jar ∧ (s.addToHold c).segs = s.segs ∧ (s.addToHold c).nbrs = s.nbrs ∧
    (s.addToHold c).fli = s.fli ∧ (s.addToHold c).wkp = s.wkp ∧ (s.addToHold c).mtp = s.mtp ∧
    (s.addToHold c).now = s.now ∧ (s.addToHold c).pending = s.pending := by
  unfold State.addToHold
  repeat' split
  all_goals simp

@[simp] theorem addCause_keeps (c : HoldCause) (s : State) :
    (s.addCause c).scu = s.scu ∧ (s.addCause c).closures = s.closures ∧ (s.addCause c).nbrs = s.nbrs ∧
    (s.addCause c).fli = s.fli ∧ (s.addCause c).now = s.now ∧ (s.addCause c).pending = s.pending := by
  unfold State.addCause
  repeat' split
  all_goals simp

@[simp] theorem releaseTest_keeps (s : State) :
    (s.releaseTest).scu = s.scu ∧ (s.releaseTest).aqu = s.aqu ∧ (s.releaseTest).closures = s.closures ∧
    (s.releaseTest).xu = s.xu ∧ (s.releaseTest).jar = s.jar ∧ (s.releaseTest).segs = s.segs ∧
    (s.releaseTest).nbrs = s.nbrs ∧ (s.releaseTest).fli = s.fli ∧ (s.releaseTest).wkp = s.wkp ∧
    (s.releaseTest).mtp = s.mtp ∧ (s.releaseTest).now = s.now ∧ (s.releaseTest).pending = s.pending := by
  unfold State.releaseTest
  repeat' split
  all_goals simp

@[simp] theorem releaseHold_keeps (s : State) :
    (s.releaseHold).scu = s.scu ∧ (s.releaseHold).aqu = s.aqu ∧ (s.releaseHold).closures = s.closures ∧
    (s.releaseHold).segs = s.segs ∧ (s.releaseHold).nbrs = s.nbrs ∧ (s.releaseHold).fli = s.fli ∧
    (s.releaseHold).hld = s.hld ∧ (s.releaseHold).mtp = s.mtp ∧ (s.releaseHold).now = s.now ∧
    (s.releaseHold).pending = s.pending := by
  unfold State.releaseHold
  repeat' split
  all_goals simp

@[simp] theorem enterFaulted_keeps (s : State) :
    (s.enterFaulted).closures = s.closures ∧ (s.enterFaulted).nbrs = s.nbrs ∧ (s.enterFaulted).now = s.now ∧
    (s.enterFaulted).pending = s.pending := by
  unfold State.enterFaulted
  repeat' split
  all_goals simp

@[simp] theorem overrunCheck_keeps (i : Arm) (id : CarrierId) (s : State) :
    (s.overrunCheck i id).scu = s.scu ∧ (s.overrunCheck i id).closures = s.closures ∧
    (s.overrunCheck i id).nbrs = s.nbrs ∧ (s.overrunCheck i id).fli = s.fli ∧ (s.overrunCheck i id).now = s.now ∧
    (s.overrunCheck i id).pending = s.pending := by
  unfold State.overrunCheck
  repeat' split
  all_goals simp

@[simp] theorem raiseSkip_keeps (id : CarrierId) (s : State) (i : Arm) :
    (State.raiseSkip id s i).scu = s.scu ∧ (State.raiseSkip id s i).closures = s.closures
    ∧ (State.raiseSkip id s i).xu = s.xu ∧ (State.raiseSkip id s i).jar = s.jar
    ∧ (State.raiseSkip id s i).segs = s.segs ∧ (State.raiseSkip id s i).nbrs = s.nbrs
    ∧ (State.raiseSkip id s i).fli = s.fli ∧ (State.raiseSkip id s i).wkp = s.wkp
    ∧ (State.raiseSkip id s i).hld = s.hld ∧ (State.raiseSkip id s i).mtp = s.mtp
    ∧ (State.raiseSkip id s i).now = s.now ∧ (State.raiseSkip id s i).pending = s.pending := by
  unfold State.raiseSkip
  repeat' split
  all_goals simp

@[simp] theorem raiseSkips_keeps (id : CarrierId) (s : State) :
    (s.raiseSkips id).scu = s.scu ∧ (s.raiseSkips id).closures = s.closures ∧ (s.raiseSkips id).xu = s.xu ∧
    (s.raiseSkips id).jar = s.jar ∧ (s.raiseSkips id).segs = s.segs ∧ (s.raiseSkips id).nbrs = s.nbrs ∧
    (s.raiseSkips id).fli = s.fli ∧ (s.raiseSkips id).wkp = s.wkp ∧ (s.raiseSkips id).hld = s.hld ∧
    (s.raiseSkips id).mtp = s.mtp ∧ (s.raiseSkips id).now = s.now ∧ (s.raiseSkips id).pending = s.pending := by
  and_intros <;> exact foldl_keeps _ _ (fun t a => by simp) _ _

@[simp] theorem designate_keeps (c : Carrier) (s : State) :
    (s.designate c).scu = s.scu ∧ (s.designate c).closures = s.closures ∧ (s.designate c).segs = s.segs ∧
    (s.designate c).nbrs = s.nbrs ∧ (s.designate c).fli = s.fli ∧ (s.designate c).wkp = s.wkp ∧
    (s.designate c).hld = s.hld ∧ (s.designate c).mtp = s.mtp ∧ (s.designate c).now = s.now ∧
    (s.designate c).pending = s.pending := by
  unfold State.designate
  simp

@[simp] theorem seekOverdue_keeps (s : State) :
    (s.seekOverdue).scu = s.scu ∧ (s.seekOverdue).closures = s.closures ∧ (s.seekOverdue).segs = s.segs ∧
    (s.seekOverdue).nbrs = s.nbrs ∧ (s.seekOverdue).fli = s.fli ∧ (s.seekOverdue).wkp = s.wkp ∧
    (s.seekOverdue).hld = s.hld ∧ (s.seekOverdue).mtp = s.mtp ∧ (s.seekOverdue).now = s.now ∧
    (s.seekOverdue).pending = s.pending := by
  unfold State.seekOverdue
  repeat' split
  all_goals simp

@[simp] theorem afterGrant_keeps (id : CarrierId) (s : State) :
    (s.afterGrant id).scu = s.scu ∧ (s.afterGrant id).closures = s.closures ∧ (s.afterGrant id).segs = s.segs ∧
    (s.afterGrant id).nbrs = s.nbrs ∧ (s.afterGrant id).fli = s.fli ∧ (s.afterGrant id).wkp = s.wkp ∧
    (s.afterGrant id).hld = s.hld ∧ (s.afterGrant id).mtp = s.mtp ∧ (s.afterGrant id).now = s.now ∧
    (s.afterGrant id).pending = s.pending := by
  unfold State.afterGrant
  simp

@[simp] theorem testOverdueExit_keeps (s : State) :
    (s.testOverdueExit).scu = s.scu ∧ (s.testOverdueExit).closures = s.closures ∧ (s.testOverdueExit).segs = s.segs ∧
    (s.testOverdueExit).nbrs = s.nbrs ∧ (s.testOverdueExit).fli = s.fli ∧ (s.testOverdueExit).wkp = s.wkp ∧
    (s.testOverdueExit).hld = s.hld ∧ (s.testOverdueExit).mtp = s.mtp ∧ (s.testOverdueExit).now = s.now ∧
    (s.testOverdueExit).pending = s.pending := by
  unfold State.testOverdueExit
  repeat' split
  all_goals simp

@[simp] theorem followOnTest_keeps (s : State) (i : Arm) :
    (s.followOnTest i).scu = s.scu ∧ (s.followOnTest i).closures = s.closures ∧ (s.followOnTest i).nbrs = s.nbrs
    ∧ (s.followOnTest i).fli = s.fli ∧ (s.followOnTest i).wkp = s.wkp ∧ (s.followOnTest i).hld = s.hld
    ∧ (s.followOnTest i).now = s.now ∧ (s.followOnTest i).pending = s.pending := by
  unfold State.followOnTest
  repeat' split
  all_goals simp

@[simp] theorem grantCandidate_keeps (s : State) :
    (s.grantCandidate).scu = s.scu ∧ (s.grantCandidate).closures = s.closures ∧ (s.grantCandidate).nbrs = s.nbrs ∧
    (s.grantCandidate).fli = s.fli ∧ (s.grantCandidate).wkp = s.wkp ∧ (s.grantCandidate).hld = s.hld ∧
    (s.grantCandidate).now = s.now ∧ (s.grantCandidate).pending = s.pending := by
  unfold State.grantCandidate
  repeat' split
  all_goals simp

@[simp] theorem round_keeps (s : State) :
    (s.round).scu = s.scu ∧ (s.round).closures = s.closures ∧ (s.round).nbrs = s.nbrs ∧ (s.round).fli = s.fli ∧
    (s.round).wkp = s.wkp ∧ (s.round).hld = s.hld ∧ (s.round).now = s.now ∧ (s.round).pending = s.pending := by
  have h : ∀ {β : Type} (g : State → β), (∀ t i, g (State.followOnTest t i) = g t) → ∀ l t,
      g (List.foldl State.followOnTest t l) = g t := fun g hg l t => foldl_keeps g _ hg l t
  unfold State.round
  simp [h State.scu (fun t i => by simp), h State.closures (fun t i => by simp),
    h State.nbrs (fun t i => by simp),
    h State.fli (fun t i => by simp), h State.wkp (fun t i => by simp), h State.hld (fun t i => by simp),
    h State.now (fun t i => by simp), h State.pending (fun t i => by simp)]

@[simp] theorem modNbr_keeps (i : Arm) (f : Neighbour → Neighbour) (s : State) :
    (s.modNbr i f).scu = s.scu ∧ (s.modNbr i f).aqu = s.aqu ∧ (s.modNbr i f).closures = s.closures ∧
    (s.modNbr i f).xu = s.xu ∧ (s.modNbr i f).jar = s.jar ∧ (s.modNbr i f).segs = s.segs ∧
    (s.modNbr i f).fli = s.fli ∧ (s.modNbr i f).wkp = s.wkp ∧ (s.modNbr i f).hld = s.hld ∧
    (s.modNbr i f).mtp = s.mtp ∧ (s.modNbr i f).now = s.now ∧ (s.modNbr i f).pending = s.pending := by
  and_intros <;> rfl

@[simp] theorem compareEpoch_keeps (i : Arm) (e : Byte) (s : State) :
    (s.compareEpoch i e).scu = s.scu ∧ (s.compareEpoch i e).aqu = s.aqu ∧
    (s.compareEpoch i e).closures = s.closures ∧ (s.compareEpoch i e).xu = s.xu ∧ (s.compareEpoch i e).jar = s.jar ∧
    (s.compareEpoch i e).segs = s.segs ∧ (s.compareEpoch i e).fli = s.fli ∧ (s.compareEpoch i e).wkp = s.wkp ∧
    (s.compareEpoch i e).hld = s.hld ∧ (s.compareEpoch i e).now = s.now ∧ (s.compareEpoch i e).pending = s.pending := by
  unfold State.compareEpoch
  repeat' split
  all_goals simp

@[simp] theorem setMismatch_keeps (i : Arm) (m : Mismatch) (s : State) :
    (s.setMismatch i m).scu = s.scu ∧ (s.setMismatch i m).aqu = s.aqu ∧ (s.setMismatch i m).closures = s.closures ∧
    (s.setMismatch i m).xu = s.xu ∧ (s.setMismatch i m).jar = s.jar ∧ (s.setMismatch i m).fli = s.fli ∧
    (s.setMismatch i m).wkp = s.wkp ∧ (s.setMismatch i m).hld = s.hld ∧ (s.setMismatch i m).now = s.now ∧
    (s.setMismatch i m).pending = s.pending := by
  unfold State.setMismatch
  dsimp only
  repeat' split
  all_goals simp

@[simp] theorem compareCapacity_keeps (i : Arm) (e : RawEntry) (s : State) :
    (s.compareCapacity i e).scu = s.scu ∧ (s.compareCapacity i e).aqu = s.aqu ∧
    (s.compareCapacity i e).closures = s.closures ∧ (s.compareCapacity i e).xu = s.xu ∧
    (s.compareCapacity i e).jar = s.jar ∧ (s.compareCapacity i e).segs = s.segs ∧
    (s.compareCapacity i e).fli = s.fli ∧ (s.compareCapacity i e).wkp = s.wkp ∧ (s.compareCapacity i e).hld = s.hld ∧
    (s.compareCapacity i e).now = s.now ∧ (s.compareCapacity i e).pending = s.pending := by
  unfold State.compareCapacity
  repeat' split
  all_goals simp

@[simp] theorem handEntry_keeps (i : Arm) (ep : Byte) (e : RawEntry) (s : State) :
    (s.handEntry i ep e).scu = s.scu ∧ (s.handEntry i ep e).aqu = s.aqu ∧
    (s.handEntry i ep e).closures = s.closures ∧ (s.handEntry i ep e).xu = s.xu ∧ (s.handEntry i ep e).jar = s.jar ∧
    (s.handEntry i ep e).fli = s.fli ∧ (s.handEntry i ep e).wkp = s.wkp ∧ (s.handEntry i ep e).hld = s.hld ∧
    (s.handEntry i ep e).now = s.now ∧ (s.handEntry i ep e).pending = s.pending := by
  unfold State.handEntry
  simp

@[simp] theorem takeReport_keeps (i : Arm) (f : FloorReport) (e : Option RawEntry) (s : State) :
    (s.takeReport i f e).scu = s.scu ∧ (s.takeReport i f e).aqu = s.aqu ∧
    (s.takeReport i f e).closures = s.closures ∧ (s.takeReport i f e).xu = s.xu ∧ (s.takeReport i f e).jar = s.jar ∧
    (s.takeReport i f e).fli = s.fli ∧ (s.takeReport i f e).wkp = s.wkp ∧ (s.takeReport i f e).hld = s.hld ∧
    (s.takeReport i f e).now = s.now ∧ (s.takeReport i f e).pending = s.pending := by
  unfold State.takeReport
  repeat' split
  all_goals simp

@[simp] theorem takeRequest_keeps (i : Arm) (ep : Byte) (s : State) :
    (s.takeRequest i ep).scu = s.scu ∧ (s.takeRequest i ep).aqu = s.aqu ∧
    (s.takeRequest i ep).closures = s.closures ∧ (s.takeRequest i ep).xu = s.xu ∧ (s.takeRequest i ep).jar = s.jar ∧
    (s.takeRequest i ep).wkp = s.wkp ∧ (s.takeRequest i ep).hld = s.hld ∧ (s.takeRequest i ep).now = s.now ∧
    (s.takeRequest i ep).pending = s.pending := by
  unfold State.takeRequest
  dsimp only
  repeat' split
  all_goals simp

@[simp] theorem neighbourSilence_keeps (i : Arm) (s : State) :
    (s.neighbourSilence i).scu = s.scu ∧ (s.neighbourSilence i).aqu = s.aqu ∧
    (s.neighbourSilence i).closures = s.closures ∧ (s.neighbourSilence i).xu = s.xu ∧
    (s.neighbourSilence i).jar = s.jar ∧ (s.neighbourSilence i).fli = s.fli ∧ (s.neighbourSilence i).wkp = s.wkp ∧
    (s.neighbourSilence i).hld = s.hld ∧ (s.neighbourSilence i).now = s.now ∧
    (s.neighbourSilence i).pending = s.pending := by
  unfold State.neighbourSilence
  dsimp only
  repeat' split
  all_goals simp

@[simp] theorem settleQuiet_keeps (old s : State) :
    (State.settleQuiet old s).scu = s.scu ∧ (State.settleQuiet old s).aqu = s.aqu
    ∧ (State.settleQuiet old s).closures = s.closures ∧ (State.settleQuiet old s).xu = s.xu
    ∧ (State.settleQuiet old s).jar = s.jar ∧ (State.settleQuiet old s).nbrs = s.nbrs
    ∧ (State.settleQuiet old s).fli = s.fli ∧ (State.settleQuiet old s).wkp = s.wkp
    ∧ (State.settleQuiet old s).hld = s.hld ∧ (State.settleQuiet old s).mtp = s.mtp
    ∧ (State.settleQuiet old s).now = s.now ∧ (State.settleQuiet old s).pending = s.pending := by
  unfold State.settleQuiet
  split <;> simp

/-- The end of an event changes the round due, the transmitter, the quiet timers and the settle timer, and no other
block. -/
@[simp] theorem finish_keeps (old s : State) :
    (State.finish old s).scu = s.scu ∧ (State.finish old s).aqu = s.aqu
    ∧ (State.finish old s).closures = s.closures ∧ (State.finish old s).xu = s.xu
    ∧ (State.finish old s).nbrs = s.nbrs ∧ (State.finish old s).wkp = s.wkp
    ∧ (State.finish old s).mtp = s.mtp
    ∧ (State.finish old s).now = s.now ∧ (State.finish old s).pending = s.pending := by
  unfold State.finish
  dsimp only
  repeat' split
  all_goals simp

/-- A change of the port changes no other block. -/
@[simp] theorem modMtp_keeps (f : Mtp → Mtp) (s : State) :
    (s.modMtp f).scu = s.scu ∧ (s.modMtp f).aqu = s.aqu ∧ (s.modMtp f).closures = s.closures ∧
    (s.modMtp f).xu = s.xu ∧ (s.modMtp f).jar = s.jar ∧ (s.modMtp f).segs = s.segs ∧ (s.modMtp f).nbrs = s.nbrs ∧
    (s.modMtp f).fli = s.fli ∧ (s.modMtp f).wkp = s.wkp ∧ (s.modMtp f).hld = s.hld ∧ (s.modMtp f).now = s.now ∧
    (s.modMtp f).pending = s.pending := by
  and_intros <;> rfl

/-- The row of a transaction changes the port and no other block. -/
@[simp] theorem endTransaction_keeps (f : Response → Buffer → Buffer) (s : State) :
    (s.endTransaction f).scu = s.scu ∧ (s.endTransaction f).aqu = s.aqu ∧
    (s.endTransaction f).closures = s.closures ∧ (s.endTransaction f).xu = s.xu ∧ (s.endTransaction f).jar = s.jar ∧
    (s.endTransaction f).segs = s.segs ∧ (s.endTransaction f).nbrs = s.nbrs ∧ (s.endTransaction f).fli = s.fli ∧
    (s.endTransaction f).wkp = s.wkp ∧ (s.endTransaction f).hld = s.hld ∧ (s.endTransaction f).now = s.now ∧
    (s.endTransaction f).pending = s.pending := by
  simp [State.endTransaction]

/-- A bit of the floor line changes the receiver and the queue of commands. -/
@[simp] theorem lineBit_keeps (level : Bool) (s : State) :
    (s.lineBit level).scu = s.scu ∧ (s.lineBit level).aqu = s.aqu ∧ (s.lineBit level).closures = s.closures ∧
    (s.lineBit level).xu = s.xu ∧ (s.lineBit level).jar = s.jar ∧ (s.lineBit level).segs = s.segs ∧
    (s.lineBit level).nbrs = s.nbrs ∧ (s.lineBit level).wkp = s.wkp ∧ (s.lineBit level).hld = s.hld ∧
    (s.lineBit level).mtp = s.mtp ∧ (s.lineBit level).now = s.now := by
  unfold State.lineBit
  dsimp only
  split <;> simp

/-- A bit of the floor line leaves the transmitter alone, and puts rows at the end of the queue only. -/
theorem lineBit_queue (level : Bool) (s : State) :
    (s.lineBit level).fli.tx = s.fli.tx ∧ ∃ rows, (s.lineBit level).pending = s.pending ++ rows := by
  unfold State.lineBit
  dsimp only
  split
  · exact ⟨rfl, _, rfl⟩
  · exact ⟨rfl, [], by simp⟩

/-- Without rows of bits that wait, a row tells the count of recessive bit times itself; otherwise the count goes on. -/
theorem noteRest_rest (rest : Nat) (x : Receiver) :
    (x.noteRest rest).rest = if x.rows = 0 then rest else x.rest := by
  unfold Receiver.noteRest
  split <;> rfl

end Sys2Proof.Machine
end

