-- ==== Sys2Proof/Laws/Event.lean ====
section
/-! SUPPORT. What an event's wrapper and its end do (Machine/Event.lean), and what reading a piece of state gives after each
basic update. -/

namespace Sys2Proof.Machine

/-! ## Reading after an update -/

@[simp] theorem seg_putSeg (i j : Arm) (g : SegEnd) (s : State) :
    (s.putSeg i g).seg j = if i = j then g else s.seg j := by
  simp [State.seg, State.putSeg, Quad.get_set]

@[simp] theorem seg_modSeg (i j : Arm) (f : SegEnd → SegEnd) (s : State) :
    (s.modSeg i f).seg j = if i = j then s.relimit i (s.seg i) (f (s.seg i)) else s.seg j := by
  simp [State.modSeg]

@[simp] theorem move_setMove (i j : Arm) (m : Option Movement) (s : State) :
    (s.setMove i m).move j = if i = j then m else s.move j := by
  simp [State.move, State.setMove, Quad.get_set]

@[simp] theorem cell_setMove (i k : Arm) (m : Option Movement) (s : State) : (s.setMove i m).cell k = s.cell k := rfl

@[simp] theorem queue_putQueue (i j : Arm) (q : List Carrier) (s : State) :
    (s.putQueue i q).queue j = if i = j then q else s.queue j := by
  simp [State.queue, State.putQueue, Quad.get_set]

@[simp] theorem cell_mapCells (f : Cell → Cell) (k : Arm) (s : State) : (s.mapCells f).cell k = f (s.cell k) := by
  simp [State.cell, State.mapCells]

@[simp] theorem move_mapCells (f : Cell → Cell) (i : Arm) (s : State) : (s.mapCells f).move i = s.move i := rfl

@[simp] theorem cell_mapCellsIn (set : List Arm) (f : Cell → Cell) (k : Arm) (s : State) :
    (s.mapCellsIn set f).cell k = if set.contains k then f (s.cell k) else s.cell k := by
  simp [State.cell, State.mapCellsIn]

@[simp] theorem move_mapCellsIn (set : List Arm) (f : Cell → Cell) (i : Arm) (s : State) :
    (s.mapCellsIn set f).move i = s.move i := rfl

theorem bit_injective {k k' : EventKind} (h : k.bit = k'.bit) : k = k' := by
  cases k <;> cases k' <;> first | rfl | exact absurd h (by decide)

/-- Raising an event sets its flag and no other. -/
@[simp] theorem flagged_raise (k k' : EventKind) (s : State) :
    (s.raise k).flagged k' = (decide (k = k') || s.flagged k') := by
  have hk : k'.bit < 18 := by cases k' <;> decide
  unfold State.flagged State.raise EventKind.mask
  simp only [BitVec.getLsbD_or, BitVec.getLsbD_twoPow]
  by_cases h : k = k'
  · subst h; simp [hk]
  · have : k.bit ≠ k'.bit := fun e => h (bit_injective e)
    simp [h, this]

/-! ## The wrapper -/

/-- With RST_N not asserted an event is its effect and its end. -/
theorem event_of_released {s : State} (h : s.scu.rstHeld = false) (f : State → State) :
    s.event f = State.finish s (f s) := by
  simp [State.event, h]

theorem plainEvent_of_released {s : State} (h : s.scu.rstHeld = false) (f : State → State) :
    s.plainEvent f = f s := by
  simp [State.plainEvent, h]

/-- While RST_N is asserted an event leaves the state alone. -/
theorem event_of_held {s : State} (h : s.scu.rstHeld = true) (f : State → State) : s.event f = s := by
  simp [State.event, h]

theorem plainEvent_of_held {s : State} (h : s.scu.rstHeld = true) (f : State → State) : s.plainEvent f = s := by
  simp [State.plainEvent, h]

/-! ## The end of an event -/

/-- The release test changes the settle timer alone. -/
theorem releaseTest_hld (s : State) : s.releaseTest.hld = { s.hld with settle := s.releaseTest.hld.settle } := by
  unfold State.releaseTest
  repeat' split
  all_goals simp [State.modHld]

/-- The falling due of a report changes the transmitter's state, pending frame and attempt count alone. -/
theorem pokeReport_tx (s : State) :
    s.pokeReport.fli.tx = { s.fli.tx with
      state := s.pokeReport.fli.tx.state, pending := s.pokeReport.fli.tx.pending,
      attempts := s.pokeReport.fli.tx.attempts } := by
  unfold State.pokeReport
  split <;> simp [State.reportDue, State.modTx]

@[simp] theorem pokeReport_rx (s : State) : s.pokeReport.fli.rx = s.fli.rx := by
  unfold State.pokeReport
  split <;> simp [State.reportDue, State.modTx]

/-- The quiet timers' test changes the quiet timers alone. -/
theorem settleQuiet_seg (old s : State) (i : Arm) :
    (State.settleQuiet old s).seg i = { s.seg i with quiet := ((State.settleQuiet old s).seg i).quiet } := by
  unfold State.settleQuiet
  split
  · by_cases h : s.provesQuiet i <;> simp [State.seg, h]
  · rfl

/-- The end of an event leaves everything alone but what EventEndOf names. -/
theorem finish_eventEnd (old s : State) : EventEndOf s (State.finish old s) := by
  refine ⟨by simp, by simp, by simp, by simp, by simp, by simp, by simp, by simp, by simp, ?_, ?_, ?_, ?_, ?_, ?_⟩
  · unfold State.finish
    dsimp only
    repeat' split
    all_goals simp [State.trigger]
    all_goals split <;> simp
  · unfold State.finish
    dsimp only
    intro h
    repeat' split
    all_goals simp [State.trigger, h]
    all_goals split <;> simp [h]
  · unfold State.finish
    dsimp only
    repeat' split
    all_goals (simp only [pokeReport_keeps]; rw [releaseTest_hld]; simp)
  · unfold State.finish
    dsimp only
    repeat' split
    all_goals simp [State.scheduleChange]
  · unfold State.finish
    dsimp only
    repeat' split
    all_goals (rw [pokeReport_tx]; simp [State.scheduleChange])
  · intro i
    have key : ∀ u : State, (∀ j, u.seg j = s.seg j) →
        ((State.settleQuiet old u).releaseTest.pokeReport).seg i
          = { s.seg i with quiet := (((State.settleQuiet old u).releaseTest.pokeReport).seg i).quiet } := by
      intro u hu
      have h1 : ((State.settleQuiet old u).releaseTest.pokeReport).seg i = (State.settleQuiet old u).seg i := by
        simp [State.seg]
      rw [h1, settleQuiet_seg, hu]
    unfold State.finish
    dsimp only
    apply key
    intro j
    repeat' split
    all_goals simp [State.seg]

/-- The end of an event changes no count, view, flag or direction of a segment end. -/
@[simp] theorem finish_counts (old s : State) (j : Arm) :
    ((State.finish old s).seg j).e = (s.seg j).e ∧ ((State.finish old s).seg j).x = (s.seg j).x ∧
    ((State.finish old s).seg j).r = (s.seg j).r ∧ ((State.finish old s).seg j).occ = (s.seg j).occ ∧
    ((State.finish old s).seg j).unsure = (s.seg j).unsure ∧
    ((State.finish old s).seg j).isolated = (s.seg j).isolated ∧ ((State.finish old s).seg j).eN = (s.seg j).eN ∧
    ((State.finish old s).seg j).xN = (s.seg j).xN ∧ ((State.finish old s).seg j).rN = (s.seg j).rN ∧
    ((State.finish old s).seg j).demN = (s.seg j).demN ∧ ((State.finish old s).seg j).dirN = (s.seg j).dirN ∧
    ((State.finish old s).seg j).limN = (s.seg j).limN ∧ ((State.finish old s).seg j).limEpN = (s.seg j).limEpN ∧
    ((State.finish old s).seg j).dir = (s.seg j).dir ∧ ((State.finish old s).seg j).last = (s.seg j).last ∧
    ((State.finish old s).seg j).limit = (s.seg j).limit ∧ ((State.finish old s).seg j).hold = (s.seg j).hold ∧
    ((State.finish old s).seg j).capN = (s.seg j).capN ∧
    ((State.finish old s).seg j).heldLimit = (s.seg j).heldLimit ∧
    ((State.finish old s).seg j).heldEpoch = (s.seg j).heldEpoch := by
  obtain ⟨-, -, -, -, -, -, -, -, -, -, -, -, -, -, h⟩ := finish_eventEnd old s
  rw [h j]
  simp

/-- The end of an event leaves the designation, the switches and the hold causes alone. -/
@[simp] theorem finish_causes (old s : State) :
    (State.finish old s).jar.overdue = s.jar.overdue ∧ (State.finish old s).jar.s1 = s.jar.s1 ∧
    (State.finish old s).jar.s2 = s.jar.s2 ∧ (State.finish old s).jar.s3 = s.jar.s3 ∧
    (State.finish old s).jar.s4 = s.jar.s4 ∧ (State.finish old s).hld.overrun = s.hld.overrun ∧
    (State.finish old s).hld.unauthorised = s.hld.unauthorised ∧
    (State.finish old s).hld.operator = s.hld.operator := by
  obtain ⟨-, -, -, -, -, -, -, -, -, hj, -, hh, -⟩ := finish_eventEnd old s
  rw [hj, hh]
  simp

end Sys2Proof.Machine
end

