-- ==== Sys2Proof/Laws/Segments.lean ====
section
/-! SUPPORT. What the operations of the segment unit (Machine/Segments.lean) do to every segment-end record. -/

namespace Sys2Proof.Machine

/-- The limit follows a change of the record; nothing else of it does. -/
@[simp] theorem relimit_keeps (s : State) (i : Arm) (old g : SegEnd) :
    (s.relimit i old g).e = g.e ∧ (s.relimit i old g).x = g.x ∧ (s.relimit i old g).r = g.r ∧
    (s.relimit i old g).occ = g.occ ∧ (s.relimit i old g).unsure = g.unsure ∧
    (s.relimit i old g).isolated = g.isolated ∧ (s.relimit i old g).eN = g.eN ∧ (s.relimit i old g).xN = g.xN ∧
    (s.relimit i old g).rN = g.rN ∧ (s.relimit i old g).demN = g.demN ∧ (s.relimit i old g).occN = g.occN ∧
    (s.relimit i old g).capN = g.capN ∧ (s.relimit i old g).condN = g.condN ∧ (s.relimit i old g).dirN = g.dirN ∧
    (s.relimit i old g).limN = g.limN ∧ (s.relimit i old g).limEpN = g.limEpN ∧ (s.relimit i old g).dir = g.dir ∧
    (s.relimit i old g).last = g.last ∧ (s.relimit i old g).limitEpoch = g.limitEpoch ∧
    (s.relimit i old g).hold = g.hold ∧ (s.relimit i old g).quiet = g.quiet ∧
    (s.relimit i old g).heldLimit = g.heldLimit ∧ (s.relimit i old g).heldEpoch = g.heldEpoch := by
  unfold State.relimit
  split
  · simp
  · split <;> simp

/-- A view taken under the consistency test: clamped into 0 to 15, the unsure flag set when the test fails (R96). -/
theorem takeView_seg (i j : Arm) (v : Int) (s : State) :
    (s.takeView i v).seg j = if i = j then s.relimit i (s.seg i)
        { s.seg i with occ := min v.toNat 15, unsure := (s.inconsistent i v || (s.seg i).unsure) }
      else s.seg j := by
  unfold State.takeView
  cases h : s.inconsistent i v
  · simp
  · have : ∀ (u : State) (k : EventKind), (u.raise k).seg j = u.seg j := fun _ _ => rfl
    simp [this]

/-- The consistency test as a condition on the view, the reservations and the effective capacity (R96). -/
theorem inconsistent_iff (i : Arm) (v : Int) (s : State) :
    s.inconsistent i v = true ↔ s.viewFails i v (s.seg i).r := by
  unfold State.inconsistent State.viewFails
  cases s.role i <;> simp

/-- What taking a view does to the end, its unsure flag and COUNT_INCONSISTENT (R96). -/
theorem takeView_tested (i : Arm) (v : Int) (s : State) : ViewTested i v (s.seg i).r s (s.takeView i v) := by
  have e : ∀ (f : SegEnd → SegEnd) (k : EventKind), (s.modSeg i f).flagged k = s.flagged k := fun _ _ => rfl
  refine ⟨by simp [takeView_seg], ?_, ?_⟩
  · rw [← inconsistent_iff]; simp [takeView_seg, or_comm]
  · rw [← inconsistent_iff]
    unfold State.takeView
    cases s.inconsistent i v <;> simp [e]

/-- Taking a view changes the view, the unsure flag and the limit alone. -/
@[simp] theorem takeView_counts (i j : Arm) (v : Int) (s : State) :
    ((s.takeView i v).seg j).e = (s.seg j).e ∧ ((s.takeView i v).seg j).x = (s.seg j).x ∧
    ((s.takeView i v).seg j).r = (s.seg j).r ∧ ((s.takeView i v).seg j).isolated = (s.seg j).isolated ∧
    ((s.takeView i v).seg j).eN = (s.seg j).eN ∧ ((s.takeView i v).seg j).xN = (s.seg j).xN ∧
    ((s.takeView i v).seg j).rN = (s.seg j).rN ∧ ((s.takeView i v).seg j).demN = (s.seg j).demN ∧
    ((s.takeView i v).seg j).capN = (s.seg j).capN ∧ ((s.takeView i v).seg j).dirN = (s.seg j).dirN ∧
    ((s.takeView i v).seg j).limN = (s.seg j).limN ∧ ((s.takeView i v).seg j).limEpN = (s.seg j).limEpN ∧
    ((s.takeView i v).seg j).dir = (s.seg j).dir ∧ ((s.takeView i v).seg j).hold = (s.seg j).hold ∧
    ((s.takeView i v).seg j).quiet = (s.seg j).quiet := by
  rw [takeView_seg]
  by_cases h : i = j
  · subst h; simp
  · simp [h]

@[simp] theorem retestView_counts (i j : Arm) (s : State) :
    ((s.retestView i).seg j).e = (s.seg j).e ∧ ((s.retestView i).seg j).x = (s.seg j).x ∧
    ((s.retestView i).seg j).r = (s.seg j).r ∧ ((s.retestView i).seg j).isolated = (s.seg j).isolated ∧
    ((s.retestView i).seg j).eN = (s.seg j).eN ∧ ((s.retestView i).seg j).xN = (s.seg j).xN ∧
    ((s.retestView i).seg j).rN = (s.seg j).rN ∧ ((s.retestView i).seg j).demN = (s.seg j).demN ∧
    ((s.retestView i).seg j).capN = (s.seg j).capN ∧ ((s.retestView i).seg j).dirN = (s.seg j).dirN ∧
    ((s.retestView i).seg j).limN = (s.seg j).limN ∧ ((s.retestView i).seg j).limEpN = (s.seg j).limEpN ∧
    ((s.retestView i).seg j).dir = (s.seg j).dir ∧ ((s.retestView i).seg j).hold = (s.seg j).hold ∧
    ((s.retestView i).seg j).quiet = (s.seg j).quiet := by
  unfold State.retestView
  exact takeView_counts _ _ _ _

/-- Entering a direction changes the direction, the hold timer and the last direction alone. -/
@[simp] theorem enterDirection_keeps (d : Direction) (g : SegEnd) :
    (g.enterDirection d).e = g.e ∧ (g.enterDirection d).x = g.x ∧ (g.enterDirection d).r = g.r ∧
    (g.enterDirection d).occ = g.occ ∧ (g.enterDirection d).unsure = g.unsure ∧
    (g.enterDirection d).isolated = g.isolated ∧ (g.enterDirection d).eN = g.eN ∧ (g.enterDirection d).xN = g.xN ∧
    (g.enterDirection d).rN = g.rN ∧ (g.enterDirection d).demN = g.demN ∧ (g.enterDirection d).occN = g.occN ∧
    (g.enterDirection d).capN = g.capN ∧ (g.enterDirection d).condN = g.condN ∧ (g.enterDirection d).dirN = g.dirN ∧
    (g.enterDirection d).limN = g.limN ∧ (g.enterDirection d).limEpN = g.limEpN ∧
    (g.enterDirection d).limit = g.limit ∧ (g.enterDirection d).limitEpoch = g.limitEpoch ∧
    (g.enterDirection d).quiet = g.quiet ∧ (g.enterDirection d).heldLimit = g.heldLimit ∧
    (g.enterDirection d).heldEpoch = g.heldEpoch ∧ (g.enterDirection d).dir = d := by
  cases d <;> and_intros <;> rfl

/-- The direction table changes the direction, the hold timer, the last direction and the limit of its arm alone. -/
@[simp] theorem steer_counts (n : Nat) (i j : Arm) (s : State) :
    ((s.steer n i).seg j).e = (s.seg j).e ∧ ((s.steer n i).seg j).x = (s.seg j).x ∧
    ((s.steer n i).seg j).r = (s.seg j).r ∧ ((s.steer n i).seg j).occ = (s.seg j).occ ∧
    ((s.steer n i).seg j).unsure = (s.seg j).unsure ∧ ((s.steer n i).seg j).isolated = (s.seg j).isolated ∧
    ((s.steer n i).seg j).eN = (s.seg j).eN ∧ ((s.steer n i).seg j).xN = (s.seg j).xN ∧
    ((s.steer n i).seg j).rN = (s.seg j).rN ∧ ((s.steer n i).seg j).demN = (s.seg j).demN ∧
    ((s.steer n i).seg j).capN = (s.seg j).capN ∧ ((s.steer n i).seg j).dirN = (s.seg j).dirN ∧
    ((s.steer n i).seg j).limN = (s.seg j).limN ∧ ((s.steer n i).seg j).limEpN = (s.seg j).limEpN ∧
    ((s.steer n i).seg j).quiet = (s.seg j).quiet := by
  induction n generalizing s with
  | zero => and_intros <;> rfl
  | succ n ih =>
    unfold State.steer
    split
    · simp
    · next d _ =>
      have h := ih (s.modSeg i (SegEnd.enterDirection d))
      by_cases e : i = j
      · subst e; simp [h]
      · simp [h, e]

@[simp] theorem evaluate_counts (i j : Arm) (s : State) :
    ((s.evaluate i).seg j).e = (s.seg j).e ∧ ((s.evaluate i).seg j).x = (s.seg j).x ∧
    ((s.evaluate i).seg j).r = (s.seg j).r ∧ ((s.evaluate i).seg j).occ = (s.seg j).occ ∧
    ((s.evaluate i).seg j).unsure = (s.seg j).unsure ∧ ((s.evaluate i).seg j).isolated = (s.seg j).isolated ∧
    ((s.evaluate i).seg j).eN = (s.seg j).eN ∧ ((s.evaluate i).seg j).xN = (s.seg j).xN ∧
    ((s.evaluate i).seg j).rN = (s.seg j).rN ∧ ((s.evaluate i).seg j).demN = (s.seg j).demN ∧
    ((s.evaluate i).seg j).capN = (s.seg j).capN ∧ ((s.evaluate i).seg j).dirN = (s.seg j).dirN ∧
    ((s.evaluate i).seg j).limN = (s.seg j).limN ∧ ((s.evaluate i).seg j).limEpN = (s.seg j).limEpN ∧
    ((s.evaluate i).seg j).quiet = (s.seg j).quiet := by
  unfold State.evaluate
  split <;> simp

/-- The direction of one arm's end is no other arm's. -/
theorem steer_other (n : Nat) {i j : Arm} (h : i ≠ j) (s : State) : (s.steer n i).seg j = s.seg j := by
  induction n generalizing s with
  | zero => rfl
  | succ n ih =>
    unfold State.steer
    split
    · rfl
    · rw [ih]; simp [h]

theorem evaluate_other {i j : Arm} (h : i ≠ j) (s : State) : (s.evaluate i).seg j = s.seg j := by
  unfold State.evaluate
  split
  · exact steer_other 4 h s
  · rfl

/-- A reservation is taken: R of the arm rises by 1, up to 15, and no other count changes (R93). -/
@[simp] theorem takeReservation_counts (i j : Arm) (s : State) :
    ((s.takeReservation i).seg j).r = (if i = j then min 15 ((s.seg j).r + 1) else (s.seg j).r) ∧
    ((s.takeReservation i).seg j).e = (s.seg j).e ∧ ((s.takeReservation i).seg j).x = (s.seg j).x := by
  unfold State.takeReservation
  by_cases h : i = j
  · subst h; simp
  · simp [h]

/-- A reservation is released: R of the arm falls by 1 when above 0, and no other count changes (R93). -/
@[simp] theorem releaseReservation_counts (i j : Arm) (s : State) :
    ((s.releaseReservation i).seg j).r = (if i = j then (s.seg j).r - 1 else (s.seg j).r) ∧
    ((s.releaseReservation i).seg j).e = (s.seg j).e ∧ ((s.releaseReservation i).seg j).x = (s.seg j).x := by
  unfold State.releaseReservation
  by_cases h : i = j
  · subst h
    by_cases h0 : (s.seg i).r = 0 <;> simp [h0]
  · by_cases h0 : (s.seg i).r = 0 <;> simp [h0, h]

/-- A count of E, consuming a reservation or not (R92, R93). -/
@[simp] theorem countE_counts (i j : Arm) (consume : Bool) (s : State) :
    ((s.countE i consume).seg j).e = (if i = j then (s.seg j).e + 1 else (s.seg j).e) ∧
    ((s.countE i consume).seg j).r = (if i = j ∧ consume = true then (s.seg j).r - 1 else (s.seg j).r) ∧
    ((s.countE i consume).seg j).x = (s.seg j).x := by
  unfold State.countE
  by_cases h : i = j
  · subst h; cases consume <;> simp
  · simp [h]

/-- A count of X (R92). -/
@[simp] theorem countX_counts (i j : Arm) (s : State) :
    ((s.countX i).seg j).x = (if i = j then (s.seg j).x + 1 else (s.seg j).x) ∧
    ((s.countX i).seg j).r = (s.seg j).r ∧ ((s.countX i).seg j).e = (s.seg j).e := by
  unfold State.countX
  by_cases h : i = j
  · subst h; simp
  · simp [h]

/-- The only flag a change of counts can raise is COUNT_INCONSISTENT. -/
theorem takeView_flag (k : EventKind) (h : k ≠ .countInconsistent) (i : Arm) (v : Int) (s : State) :
    (s.takeView i v).flagged k = s.flagged k := by
  have e : ∀ (f : SegEnd → SegEnd), (s.modSeg i f).flagged k = s.flagged k := fun _ => rfl
  unfold State.takeView
  split
  · simp [Ne.symm h, e]
  · simp [e]

end Sys2Proof.Machine
end

