-- ==== Sys2Proof/Laws/Queues.lean ====
section
/-! SUPPORT. What a change of a queue does (Machine/Crossing.lean): to the queues, to the crossing, to the segment ends, and
to the overdue designation. -/

namespace Sys2Proof.Machine

/-- A record replaced in place leaves the IDs of the queue, when the change leaves the ID. -/
theorem updateRecord_ids (id : CarrierId) (f : Carrier → Carrier) (hf : ∀ c, (f c).id = c.id) (q : List Carrier) :
    (updateRecord id f q).map Carrier.id = q.map Carrier.id := by
  unfold updateRecord
  rw [List.map_map]
  apply List.map_congr_left
  intro c _
  simp only [Function.comp]
  split <;> simp [hf]

/-- The record found under an ID after it has been replaced in place. -/
theorem find_updateRecord (id : CarrierId) (f : Carrier → Carrier) (hf : ∀ c, (f c).id = c.id) (q : List Carrier) :
    (updateRecord id f q).find? (fun c => c.id == id) = (q.find? fun c => c.id == id).map f := by
  induction q with
  | nil => rfl
  | cons c q ih =>
    unfold updateRecord at ih ⊢
    rw [List.map_cons]
    by_cases h : c.id = id
    · simp [h, hf]
    · have : (c.id == id) = false := by simpa using h
      simp only [if_neg h, List.find?_cons, this, ih]

/-- A record under another ID is the same after the replacement. -/
theorem mem_updateRecord_other {id : CarrierId} {f : Carrier → Carrier} {q : List Carrier} {r : Carrier} (h : r ∈ q)
    (hr : r.id ≠ id) : r ∈ updateRecord id f q := by
  unfold updateRecord
  exact List.mem_map.mpr ⟨r, h, by simp [hr]⟩

/-- A trigger makes a round due, at most. -/
@[simp] theorem trigger_jar (s : State) :
    s.trigger.jar.overdue = s.jar.overdue ∧ s.trigger.jar.s1 = s.jar.s1 ∧ s.trigger.jar.s2 = s.jar.s2 ∧
    s.trigger.jar.s3 = s.jar.s3 ∧ s.trigger.jar.s4 = s.jar.s4 ∧ s.trigger.jar.due = (s.jar.due || s.granting) := by
  unfold State.trigger
  cases h : s.granting <;> simp

/-- The demand taken by the segment ends changes no count, and no end's record but direction, hold timer and limit. -/
@[simp] theorem noteDemand_counts (old s : State) (j : Arm) :
    ((State.noteDemand old s).seg j).e = (s.seg j).e ∧ ((State.noteDemand old s).seg j).x = (s.seg j).x ∧
    ((State.noteDemand old s).seg j).r = (s.seg j).r ∧ ((State.noteDemand old s).seg j).occ = (s.seg j).occ ∧
    ((State.noteDemand old s).seg j).unsure = (s.seg j).unsure ∧
    ((State.noteDemand old s).seg j).isolated = (s.seg j).isolated := by
  have key : ∀ {β : Type} (g : State → β), (∀ (t : State) (a : Arm), g (t.evaluate a) = g t) →
      g (State.noteDemand old s) = g s := by
    intro β g hg
    unfold State.noteDemand
    apply foldl_keeps
    intro t a
    split
    · rfl
    · exact hg t a
  refine ⟨?_, ?_, ?_, ?_, ?_, ?_⟩
  · exact key (fun t => (t.seg j).e) (by intro t a; simp)
  · exact key (fun t => (t.seg j).x) (by intro t a; simp)
  · exact key (fun t => (t.seg j).r) (by intro t a; simp)
  · exact key (fun t => (t.seg j).occ) (by intro t a; simp)
  · exact key (fun t => (t.seg j).unsure) (by intro t a; simp)
  · exact key (fun t => (t.seg j).isolated) (by intro t a; simp)

/-! ## The end of a designation -/

/-- The end of a designation: the designation is absent, the record's flag is cleared and its skip count is 0, the cells
RESERVED for it are FREE, and nothing else of the queues and of the crossing changes (R85). -/
theorem endOverdue_does (s : State) :
    s.endOverdue.jar.overdue = none
    ∧ (∀ j, s.endOverdue.queue j = match s.jar.overdue with
        | none => s.queue j
        | some o => if o.arrival = j then updateRecord o.id (fun c => { c with overdue := false, skip := 0 }) (s.queue j)
            else s.queue j)
    ∧ (∀ k, s.endOverdue.cell k = match s.jar.overdue with
        | none => s.cell k
        | some o => (s.cell k).unreserve o.id)
    ∧ s.endOverdue.xu.moves = s.xu.moves ∧ s.endOverdue.xu.unmatched = s.xu.unmatched
    ∧ s.endOverdue.xu.ent = s.xu.ent ∧ s.endOverdue.xu.ext = s.xu.ext ∧ s.endOverdue.xu.box = s.xu.box
    ∧ s.endOverdue.aqu.sends = s.aqu.sends ∧ s.endOverdue.aqu.linkRx = s.aqu.linkRx
    ∧ s.endOverdue.aqu.linkTx = s.aqu.linkTx := by
  unfold State.endOverdue
  cases h : s.jar.overdue with
  | none => simp [h]
  | some o =>
    dsimp only
    generalize hv : (State.mapCells (Cell.unreserve o.id) (State.putQueue o.arrival _ _) : State) = v
    have h1 : v.jar.overdue = none := by subst hv; rfl
    have h2 : ∀ j, v.queue j = if o.arrival = j then
        updateRecord o.id (fun c => { c with overdue := false, skip := 0 }) (s.queue j) else s.queue j := by
      subst hv
      intro j
      show (State.putQueue o.arrival _ _ : State).queue j = _
      rw [queue_putQueue]
      split
      · next e => subst e; rfl
      · rfl
    have h3 : ∀ k, v.cell k = (s.cell k).unreserve o.id := by
      subst hv; intro k; rw [cell_mapCells]; rfl
    have h4 : v.xu.moves = s.xu.moves ∧ v.xu.unmatched = s.xu.unmatched ∧ v.xu.ent = s.xu.ent ∧ v.xu.ext = s.xu.ext
        ∧ v.xu.box = s.xu.box ∧ v.aqu.sends = s.aqu.sends ∧ v.aqu.linkRx = s.aqu.linkRx
        ∧ v.aqu.linkTx = s.aqu.linkTx := by subst hv; and_intros <;> rfl
    split
    · refine ⟨by simp [h1], fun j => ?_, fun k => ?_, by simpa using h4⟩
      · rw [← h2]; simp [State.queue]
      · rw [← h3]; simp [State.cell]
    · exact ⟨h1, h2, h3, h4⟩

theorem endOverdue_none {s : State} (h : s.jar.overdue = none) : s.endOverdue = s := by
  simp [State.endOverdue, h]

theorem checkOverdue_none {s : State} (h : s.jar.overdue = none) : s.checkOverdue = s := by
  simp [State.checkOverdue, h]

/-- The designation is tested: it stands on, or it ends. -/
theorem checkOverdue_cases (s : State) : s.checkOverdue = s ∨ s.checkOverdue = s.endOverdue := by
  unfold State.checkOverdue
  split
  · exact .inl rfl
  · split
    · exact .inl rfl
    · exact .inr rfl

/-! ## A change of a queue -/

/-- A change of a queue with no designation present: the queue is the changed one, no other queue, no cell, no movement and no
link changes (R25, R35, R75). -/
theorem onQueue_none {s : State} (h : s.jar.overdue = none) (i : Arm) (f : List Carrier → List Carrier) :
    (s.onQueue i f).jar.overdue = none ∧ (s.onQueue i f).xu = s.xu
    ∧ (s.onQueue i f).aqu = { s.aqu with queues := s.aqu.queues.set i (f (s.queue i)) } := by
  unfold State.onQueue
  dsimp only
  have h1 : (State.noteDemand s (s.putQueue i (f (s.queue i)))).jar.overdue = none := by simp [h]
  have h2 : (State.noteDemand s (s.putQueue i (f (s.queue i)))).trigger.jar.overdue = none := by
    unfold State.trigger; split <;> simp [h]
  split
  · rw [checkOverdue_none h2]; exact ⟨h2, by simp, by simp [State.putQueue]⟩
  · rw [checkOverdue_none h1]; exact ⟨h1, by simp, by simp [State.putQueue]⟩

/-- A change of a queue changes no count of a segment end. -/
@[simp] theorem onQueue_counts (i j : Arm) (f : List Carrier → List Carrier) (s : State) :
    ((s.onQueue i f).seg j).e = (s.seg j).e ∧ ((s.onQueue i f).seg j).x = (s.seg j).x ∧
    ((s.onQueue i f).seg j).r = (s.seg j).r ∧ ((s.onQueue i f).seg j).occ = (s.seg j).occ ∧
    ((s.onQueue i f).seg j).unsure = (s.seg j).unsure := by
  have key : ∀ t : State, (t.checkOverdue).seg j = t.seg j := by intro t; simp [State.seg]
  have key2 : ∀ t : State, (t.trigger).seg j = t.seg j := by intro t; simp [State.seg]
  have key3 : (s.putQueue i (f (s.queue i))).seg j = s.seg j := rfl
  unfold State.onQueue
  dsimp only
  split <;> simp [key, key2, key3]

/-- A change of a queue: no movement, no unmatched entry, no input and no link changes, and a cell that is not RESERVED
stays. -/
theorem onQueue_crossing (i : Arm) (f : List Carrier → List Carrier) (s : State) :
    (s.onQueue i f).xu.moves = s.xu.moves ∧ (s.onQueue i f).xu.unmatched = s.xu.unmatched
    ∧ (s.onQueue i f).xu.ent = s.xu.ent ∧ (s.onQueue i f).xu.ext = s.xu.ext ∧ (s.onQueue i f).xu.box = s.xu.box
    ∧ (s.onQueue i f).aqu.sends = s.aqu.sends ∧ (s.onQueue i f).aqu.linkRx = s.aqu.linkRx
    ∧ (s.onQueue i f).aqu.linkTx = s.aqu.linkTx
    ∧ ∀ k, (s.onQueue i f).cell k = s.cell k ∨ ((s.onQueue i f).cell k = .free ∧ ∃ id, s.cell k = .reserved id) := by
  unfold State.onQueue
  dsimp only
  generalize hu : (if headNews (s.queue i) (f (s.queue i)) = true then
    (State.noteDemand s (s.putQueue i (f (s.queue i)))).trigger else State.noteDemand s (s.putQueue i (f (s.queue i)))) = u
  have hx : u.xu = s.xu := by subst hu; split <;> simp
  have ha : u.aqu.sends = s.aqu.sends ∧ u.aqu.linkRx = s.aqu.linkRx ∧ u.aqu.linkTx = s.aqu.linkTx := by
    subst hu; split <;> simp [State.putQueue]
  rcases checkOverdue_cases u with h | h <;> rw [h]
  · simp [hx, ha, State.cell]
  · obtain ⟨-, -, hc, h1, h2, h3, h4, h5, h6, h7, h8⟩ := endOverdue_does u
    refine ⟨by rw [h1, hx], by rw [h2, hx], by rw [h3, hx], by rw [h4, hx], by rw [h5, hx], by rw [h6, ha.1],
      by rw [h7, ha.2.1], by rw [h8, ha.2.2], ?_⟩
    intro k
    have hk : u.cell k = s.cell k := by simp [State.cell, hx]
    rw [hc, hk]
    split
    · exact .inl rfl
    · next o _ =>
      cases hc : s.cell k <;> simp [Cell.unreserve]
      next id =>
        by_cases e : id = o.id
        · exact .inr (by simp [e])
        · exact .inl (by simp [e])

/-- A change of a queue that keeps the IDs keeps the IDs of every queue, the end of a designation included. -/
theorem onQueue_ids (i j : Arm) (f : List Carrier → List Carrier) (s : State) :
    ((s.onQueue i f).queue j).map Carrier.id
      = if i = j then (f (s.queue i)).map Carrier.id else (s.queue j).map Carrier.id := by
  unfold State.onQueue
  dsimp only
  generalize hu : (if headNews (s.queue i) (f (s.queue i)) = true then
    (State.noteDemand s (s.putQueue i (f (s.queue i)))).trigger else State.noteDemand s (s.putQueue i (f (s.queue i)))) = u
  have hq : u.queue j = if i = j then f (s.queue i) else s.queue j := by
    rw [← queue_putQueue]
    subst hu; split <;> simp [State.queue]
  have hm : (u.queue j).map Carrier.id
      = if i = j then (f (s.queue i)).map Carrier.id else (s.queue j).map Carrier.id := by
    rw [hq]; split <;> rfl
  rcases checkOverdue_cases u with h | h <;> rw [h]
  · exact hm
  · rw [(endOverdue_does u).2.1 j]
    split
    · exact hm
    · split
      · exact (updateRecord_ids _ _ (by intro c; rfl) _).trans hm
      · exact hm

end Sys2Proof.Machine
end

