-- ==== Sys2Proof/Laws/Crossing.lean ====
section
/-! SUPPORT. What the end of a movement record, the withdrawal of a grant and the two kinds of grant do to the crossing, to the
queues and to the reservations (Machine/Crossing.lean), with no overdue designation present. -/

namespace Sys2Proof.Machine

/-- The OPEN test changes the walkway and may make a round due; nothing else. -/
@[simp] theorem openTest_jar (s : State) :
    s.openTest.jar.overdue = s.jar.overdue ∧ s.openTest.jar.s1 = s.jar.s1 ∧ s.openTest.jar.s2 = s.jar.s2 ∧
    s.openTest.jar.s3 = s.jar.s3 ∧ s.openTest.jar.s4 = s.jar.s4 := by
  unfold State.openTest
  split <;> simp

/-- A movement record ends: it is gone, the cells of its set are as R52 says, and no other cell, record, queue or segment end
changes. -/
theorem endMovement_does (i j : Arm) (s : State) :
    (∀ i', (s.endMovement i j).move i' = if i = i' then none else s.move i')
    ∧ (∀ k, (s.endMovement i j).cell k = if k ∈ cellSet i j then s.releasedCell k else s.cell k)
    ∧ (s.endMovement i j).xu.unmatched = s.xu.unmatched ∧ (s.endMovement i j).xu.ent = s.xu.ent
    ∧ (s.endMovement i j).xu.ext = s.xu.ext ∧ (s.endMovement i j).xu.box = s.xu.box
    ∧ (s.endMovement i j).aqu = s.aqu ∧ (s.endMovement i j).segs = s.segs
    ∧ (s.endMovement i j).jar.overdue = s.jar.overdue := by
  unfold State.endMovement
  have hx : ∀ v, (s.setMove i v).xu = { s.xu with moves := s.xu.moves.set i v } := fun _ => rfl
  refine ⟨fun i' => ?_, fun k => ?_, by simp [hx], by simp [hx], by simp [hx], by simp [hx], by simp, by simp, by simp⟩
  · rw [← move_setMove]
    simp [State.move]
  · simp [State.cell]

/-- The reservations, movements, cells and queues after the withdrawal of a grant (R59). -/
theorem withdrawGrant_does {s : State} {id : CarrierId} {i : Arm} {m : Movement} (h : s.grantOf id = some i)
    (hm : s.move i = some m) :
    (∀ i', (s.withdrawGrant id).move i' = if i = i' then
        (if dropGranted id m.carriers = [] then none else some { m with carriers := dropGranted id m.carriers })
      else s.move i')
    ∧ (∀ k, (s.withdrawGrant id).cell k =
        if dropGranted id m.carriers = [] ∧ k ∈ cellSet i m.exit then s.releasedCell k else s.cell k)
    ∧ (∀ j, ((s.withdrawGrant id).seg j).r = if m.exit = j then (s.seg j).r - 1 else (s.seg j).r)
    ∧ (∀ j, ((s.withdrawGrant id).seg j).e = (s.seg j).e ∧ ((s.withdrawGrant id).seg j).x = (s.seg j).x)
    ∧ (s.withdrawGrant id).xu.unmatched = s.xu.unmatched ∧ (s.withdrawGrant id).xu.ent = s.xu.ent
    ∧ (s.withdrawGrant id).xu.ext = s.xu.ext ∧ (s.withdrawGrant id).xu.box = s.xu.box
    ∧ (s.withdrawGrant id).aqu = s.aqu ∧ (s.withdrawGrant id).jar.overdue = s.jar.overdue := by
  simp only [State.withdrawGrant, h, hm]
  generalize hu : State.releaseReservation m.exit (s.setMove i (some { m with carriers := dropGranted id m.carriers })) = u
  have hmv : ∀ i', u.move i' = if i = i' then some { m with carriers := dropGranted id m.carriers } else s.move i' := by
    intro i'
    rw [← move_setMove]
    subst hu; simp [State.move]
  have hc : ∀ k, u.cell k = s.cell k := by intro k; subst hu; simp [State.cell, State.setMove]
  have hs : ∀ j, (u.seg j).r = (if m.exit = j then (s.seg j).r - 1 else (s.seg j).r)
      ∧ (u.seg j).e = (s.seg j).e ∧ (u.seg j).x = (s.seg j).x := by
    intro j
    have : ∀ v, (s.setMove i v).seg j = s.seg j := fun _ => rfl
    subst hu; simp [this]
  have hx : u.xu.unmatched = s.xu.unmatched ∧ u.xu.ent = s.xu.ent ∧ u.xu.ext = s.xu.ext ∧ u.xu.box = s.xu.box
      ∧ u.aqu = s.aqu ∧ u.jar.overdue = s.jar.overdue := by
    subst hu; simp [State.setMove]
  have hr : ∀ k, u.releasedCell k = s.releasedCell k := by
    intro k
    have : u.hld = s.hld ∧ u.scu = s.scu := by subst hu; simp
    simp [State.releasedCell, State.heldForCarrier, State.part, this.1, this.2, hx.2.2.2.2.2]
  by_cases he : dropGranted id m.carriers = []
  · simp only [he, List.isEmpty_nil, if_true, true_and]
    obtain ⟨e1, e2, e3, e4, e5, e6, e7, e8, e9⟩ := endMovement_does i m.exit u
    refine ⟨fun i' => ?_, fun k => ?_, fun j => ?_, fun j => ?_, by rw [e3, hx.1], by rw [e4, hx.2.1],
      by rw [e5, hx.2.2.1], by rw [e6, hx.2.2.2.1], by rw [e7, hx.2.2.2.2.1], by rw [e9, hx.2.2.2.2.2]⟩
    · rw [e1, hmv]; split <;> rfl
    · rw [e2, hr, hc]
    · have : (State.endMovement i m.exit u).seg j = u.seg j := by simp [State.seg]
      rw [this]; exact (hs j).1
    · have : (State.endMovement i m.exit u).seg j = u.seg j := by simp [State.seg]
      rw [this]; exact (hs j).2
  · have hb : (dropGranted id m.carriers).isEmpty = false := by simp [he]
    simp only [hb, he, if_false, false_and, Bool.false_eq_true]
    exact ⟨fun i' => hmv i', hc, fun j => (hs j).1, fun j => (hs j).2, hx⟩

theorem withdrawGrant_none {s : State} {id : CarrierId} (h : s.grantOf id = none) : s.withdrawGrant id = s := by
  simp [State.withdrawGrant, h]

/-- An item falls due on a link (R20). -/
theorem sendDue_eq (link : Arm) (item : SendItem) (s : State) :
    s.sendDue link item = { s with aqu := { s.aqu with
      sends := s.aqu.sends.set link (withDue item (s.aqu.sends.get link)) } } := by
  unfold State.sendDue withDue
  by_cases h : (s.aqu.sends.get link).length < 16
  · rw [if_pos h, if_pos h]
  · rw [if_neg h, if_neg h]; simp

/-- A CLEARANCE falls due on a link (R20, R36). -/
theorem clearanceDue_eq (link : Arm) (id : CarrierId) (s : State) :
    s.clearanceDue link id = { s with aqu := { s.aqu with
      sends := s.aqu.sends.set link (withClearance id (s.aqu.sends.get link)) } } := by
  unfold State.clearanceDue withClearance
  cases h : (s.aqu.sends.get link).contains (.clearance id)
  · simp only [Bool.false_eq_true, if_false]
    exact sendDue_eq _ _ _
  · simp

/-- A REFUSAL falls due on a link (R20). -/
theorem refusalDue_eq (link : Arm) (id : CarrierId) (reason : RefusalReason) (s : State) :
    s.refusalDue link id reason = { s with aqu := { s.aqu with
      sends := s.aqu.sends.set link (withDue (.refusal id reason) (s.aqu.sends.get link)) } } := sendDue_eq _ _ _

/-- Steps 4 to 6 of a grant, with no designation present: a reservation, the record GRANTED with skip count 0, a CLEARANCE
(R57). -/
theorem finishGrant_does {s : State} (h : s.jar.overdue = none) (c : Carrier) :
    (∀ j, ((s.finishGrant c).seg j).r = if c.exit = j then min 15 ((s.seg j).r + 1) else (s.seg j).r)
    ∧ (s.finishGrant c).xu = s.xu ∧ (s.finishGrant c).jar.overdue = none
    ∧ (s.finishGrant c).aqu = { s.aqu with
        queues := s.aqu.queues.set c.arrival
          (updateRecord c.id (fun r => { r with state := .granted, skip := 0 }) (s.queue c.arrival))
        sends := s.aqu.sends.set c.arrival (withClearance c.id (s.aqu.sends.get c.arrival)) } := by
  unfold State.finishGrant State.onRecord
  have h1 : (s.takeReservation c.exit).jar.overdue = none := by simp [h]
  obtain ⟨a1, a2, a3⟩ := onQueue_none h1 c.arrival (updateRecord c.id fun r => { r with state := .granted, skip := 0 })
  have hq : (s.takeReservation c.exit).queue c.arrival = s.queue c.arrival := by simp [State.queue]
  refine ⟨fun j => ?_, ?_, ?_, ?_⟩
  · have : ∀ (u : State), (u.clearanceDue c.arrival c.id).seg j = u.seg j := by intro u; simp [State.seg]
    rw [this]; simp
  · simp [a2]
  · simp [a1]
  · rw [clearanceDue_eq, a3, hq]; simp

end Sys2Proof.Machine
end

