-- ==== Sys2Proof/Laws/Law.lean ====
section
/-! SUPPORT. The law of the crossing (Safety.lean), operation by operation: what each leaves of the movement records and of the
HELD cells. -/

namespace Sys2Proof.Machine

/-- The same movement records, and the same cells HELD by the same holders. -/
def SameHeld (s t : State) : Prop := t.xu.moves = s.xu.moves ∧ ∀ k i, t.cell k = .held i ↔ s.cell k = .held i

theorem SameHeld.refl (s : State) : SameHeld s s := ⟨rfl, fun _ _ => Iff.rfl⟩

theorem SameHeld.trans {s t u : State} (h : SameHeld s t) (h' : SameHeld t u) : SameHeld s u :=
  ⟨h'.1.trans h.1, fun k i => (h'.2 k i).trans (h.2 k i)⟩

theorem SameHeld.of_xu {s t : State} (h : t.xu = s.xu) : SameHeld s t :=
  ⟨by rw [h], fun k i => by simp [State.cell, h]⟩

theorem SameHeld.xu {s t u : State} (h : SameHeld s t) (e : u.xu = t.xu) : SameHeld s u := h.trans (.of_xu e)

theorem SameHeld.of_parts {s t : State} (h : t.xu.moves = s.xu.moves) (h' : t.xu.cells = s.xu.cells) : SameHeld s t :=
  ⟨h, fun k i => by simp [State.cell, h']⟩

/-- The law reads movement records and HELD cells alone. -/
theorem CrossingLaw.of_sameHeld {s t : State} (h : SameHeld s t) (hs : CrossingLaw s) : CrossingLaw t := by
  have hm : ∀ i, t.move i = s.move i := fun i => by simp [State.move, h.1]
  refine ⟨fun i m hi => ?_, fun k i hk => ?_⟩
  · rw [hm] at hi
    obtain ⟨a, b, c⟩ := hs.1 i m hi
    exact ⟨a, b, fun k hk => (h.2 k i).mpr (c k hk)⟩
  · rw [hm]
    exact hs.2 k i ((h.2 k i).mp hk)

/-- The law when carrier lists change and stay non-empty. -/
theorem CrossingLaw.of_lists {s t : State} (hs : CrossingLaw s) (hc : ∀ k i, t.cell k = .held i ↔ s.cell k = .held i)
    (hm : ∀ i m', t.move i = some m' → ∃ m, s.move i = some m ∧ m'.exit = m.exit ∧ m'.carriers ≠ [])
    (hb : ∀ i m, s.move i = some m → ∃ m', t.move i = some m') : CrossingLaw t := by
  refine ⟨fun i m' hi => ?_, fun k i hk => ?_⟩
  · obtain ⟨m, h1, h2, h3⟩ := hm i m' hi
    obtain ⟨a, -, c⟩ := hs.1 i m h1
    rw [h2]
    exact ⟨a, h3, fun k hk => (hc k i).mpr (c k hk)⟩
  · obtain ⟨m, h1, h2⟩ := hs.2 k i ((hc k i).mp hk)
    obtain ⟨m', h3⟩ := hb i m h1
    obtain ⟨m'', h4, h5, -⟩ := hm i m' h3
    rw [h1] at h4
    cases h4
    exact ⟨m', h3, by rw [h5]; exact h2⟩

/-- The law when the record of arm `i` ends and its cells leave HELD. -/
theorem CrossingLaw.of_end {s t : State} {i : Arm} {m : Movement} (hs : CrossingLaw s) (hi : s.move i = some m)
    (hm : ∀ j, t.move j = if i = j then none else s.move j)
    (hc : ∀ k, t.cell k = if k ∈ cellSet i m.exit then s.releasedCell k else s.cell k) : CrossingLaw t := by
  have hr : ∀ k j, s.releasedCell k ≠ .held j := by
    intro k j
    unfold State.releasedCell
    repeat' split
    all_goals simp
  refine ⟨fun j m' hj => ?_, fun k j hk => ?_⟩
  · rw [hm] at hj
    by_cases e : i = j
    · simp [e] at hj
    · rw [if_neg e] at hj
      obtain ⟨a, b, c⟩ := hs.1 j m' hj
      refine ⟨a, b, fun k hk => ?_⟩
      rw [hc, if_neg]
      · exact c k hk
      · intro hk'
        have h1 := (hs.1 i m hi).2.2 k hk'
        rw [c k hk] at h1
        cases h1
        exact e rfl
  · rw [hc] at hk
    by_cases e : k ∈ cellSet i m.exit
    · rw [if_pos e] at hk
      exact absurd hk (hr k j)
    · rw [if_neg e] at hk
      obtain ⟨m', h1, h2⟩ := hs.2 k j hk
      refine ⟨m', ?_, h2⟩
      rw [hm, if_neg]
      · exact h1
      · rintro rfl
        rw [hi] at h1
        cases h1
        exact e h2

/-- A bulk order that neither makes nor ends HELD. -/
theorem sameHeld_mapCells {f : Cell → Cell} (hf : ∀ c i, f c = .held i ↔ c = .held i) (s : State) :
    SameHeld s (s.mapCells f) := ⟨rfl, fun k i => by rw [cell_mapCells]; exact hf _ _⟩

theorem toEmergency_held (c : Cell) (i : Arm) : c.toEmergency = .held i ↔ c = .held i := by
  cases c <;> simp [Cell.toEmergency]

theorem fromEmergency_held (c : Cell) (i : Arm) : c.fromEmergency = .held i ↔ c = .held i := by
  cases c <;> simp [Cell.fromEmergency]

theorem resolve_held (c : Cell) (i : Arm) : c.resolve = .held i ↔ c = .held i := by
  cases c <;> simp [Cell.resolve]

theorem reserveFor_held (id : CarrierId) (c : Cell) (i : Arm) : c.reserveFor id = .held i ↔ c = .held i := by
  cases c <;> simp [Cell.reserveFor]

theorem unreserve_held (id : CarrierId) (c : Cell) (i : Arm) : c.unreserve id = .held i ↔ c = .held i := by
  cases c <;> simp [Cell.unreserve]
  split <;> simp

theorem sameHeld_endOverdue (s : State) : SameHeld s s.endOverdue := by
  obtain ⟨-, -, hc, hm, -⟩ := endOverdue_does s
  refine ⟨hm, fun k i => ?_⟩
  rw [hc]
  split
  · rfl
  · exact unreserve_held _ _ _

theorem sameHeld_onQueue (i : Arm) (f : List Carrier → List Carrier) (s : State) : SameHeld s (s.onQueue i f) := by
  obtain ⟨hm, -, -, -, -, -, -, -, hc⟩ := onQueue_crossing i f s
  refine ⟨hm, fun k j => ?_⟩
  rcases hc k with h | ⟨h, id, h'⟩
  · rw [h]
  · simp [h, h']

/-- A grant found stands in a movement record. -/
theorem move_of_grantOf {s : State} {id : CarrierId} {i : Arm} (h : s.grantOf id = some i) :
    ∃ m, s.move i = some m ∧ m.carriers.any (Entry.grantedTo id) = true := by
  unfold State.grantOf at h
  have := List.find?_some h
  cases hm : s.move i with
  | none => simp [hm] at this
  | some m => simp only [hm] at this; exact ⟨m, rfl, this⟩

theorem law_withdrawGrant (id : CarrierId) {s : State} (hs : CrossingLaw s) : CrossingLaw (s.withdrawGrant id) := by
  cases h : s.grantOf id with
  | none => rw [withdrawGrant_none h]; exact hs
  | some i =>
    obtain ⟨m, hm, -⟩ := move_of_grantOf h
    obtain ⟨hmv, hc, -⟩ := withdrawGrant_does h hm
    by_cases he : dropGranted id m.carriers = []
    · refine hs.of_end hm (fun j => ?_) fun k => ?_
      · rw [hmv]; simp [he]
      · rw [hc]; simp [he]
    · refine hs.of_lists (fun k j => by rw [hc]; simp [he]) (fun j m' hj => ?_) fun j m' hj => ?_
      · rw [hmv] at hj
        by_cases e : i = j
        · subst e
          simp only [if_true, he, if_false, Option.some.injEq] at hj
          exact ⟨m, hm, by rw [← hj], by rw [← hj]; exact he⟩
        · rw [if_neg e] at hj
          exact ⟨m', hj, rfl, (hs.1 j m' hj).2.1⟩
      · rw [hmv]
        by_cases e : i = j
        · subst e; simp [he]
        · rw [if_neg e]; exact ⟨m', hj⟩

theorem sameHeld_finishGrant (c : Carrier) (s : State) : SameHeld s (s.finishGrant c) := by
  unfold State.finishGrant State.onRecord
  have h1 : SameHeld s (s.takeReservation c.exit) := .of_xu (by simp)
  refine SameHeld.xu (h1.trans (sameHeld_onQueue c.arrival
    (updateRecord c.id fun r => { r with state := .granted, skip := 0 }) _)) ?_
  simp

/-- A grant that creates a record keeps the law, for a movement to another arm. -/
theorem law_executeGrant {c : Carrier} {rescue : Bool} {s : State} (hs : CrossingLaw s) (he : c.exit ≠ c.arrival) :
    CrossingLaw (s.executeGrant c rescue) := by
  unfold State.executeGrant
  split
  · next hg =>
    refine CrossingLaw.of_sameHeld (sameHeld_finishGrant _ _) ?_
    simp only [State.grantExecutable, Bool.and_eq_true, Option.isNone_iff_eq_none, State.cellsTakable,
      List.all_eq_true] at hg
    obtain ⟨⟨-, hn⟩, hc⟩ := hg
    refine ⟨fun i m hi => ?_, fun k i hk => ?_⟩
    · rw [move_mapCellsIn, move_setMove] at hi
      by_cases e : c.arrival = i
      · subst e
        simp only [if_true, Option.some.injEq] at hi
        subst hi
        exact ⟨he, by simp, fun k hk => by simp [hk]⟩
      · rw [if_neg e] at hi
        obtain ⟨a, b, d⟩ := hs.1 i m hi
        refine ⟨a, b, fun k hk => ?_⟩
        rw [cell_mapCellsIn, cell_setMove, if_neg]
        · exact d k hk
        · intro hk'
          have := hc k (by simpa using hk')
          rw [d k hk] at this
          simp [Cell.takable] at this
    · rw [cell_mapCellsIn, cell_setMove] at hk
      rw [move_mapCellsIn, move_setMove]
      by_cases e : (cellSet c.arrival c.exit).contains k = true
      · rw [if_pos e] at hk
        cases hk
        exact ⟨_, if_pos rfl, by simpa using e⟩
      · rw [if_neg e] at hk
        obtain ⟨m, h1, h2⟩ := hs.2 k i hk
        refine ⟨m, ?_, h2⟩
        rw [if_neg]
        · exact h1
        · rintro rfl; rw [hn] at h1; cases h1
  · exact hs

theorem law_setMove_lists {s : State} (hs : CrossingLaw s) {i : Arm} {m m' : Movement} (hm : s.move i = some m)
    (he : m'.exit = m.exit) (hc : m'.carriers ≠ []) : CrossingLaw (s.setMove i (some m')) := by
  refine hs.of_lists (fun _ _ => Iff.rfl) (fun j n hj => ?_) fun j n hj => ?_
  · rw [move_setMove] at hj
    by_cases e : i = j
    · subst e
      simp only [if_true, Option.some.injEq] at hj
      subst hj
      exact ⟨m, hm, he, hc⟩
    · rw [if_neg e] at hj
      exact ⟨n, hj, rfl, (hs.1 j n hj).2.1⟩
  · rw [move_setMove]
    by_cases e : i = j
    · exact ⟨m', if_pos e⟩
    · exact ⟨n, by rw [if_neg e]; exact hj⟩

theorem law_executeFollowOn (c : Carrier) {s : State} (hs : CrossingLaw s) : CrossingLaw (s.executeFollowOn c) := by
  unfold State.executeFollowOn
  split
  · exact hs
  · next m hm =>
    split
    · refine CrossingLaw.of_sameHeld (sameHeld_finishGrant _ _) ?_
      exact law_setMove_lists hs hm rfl (by simp)
    · exact hs

theorem law_mapEntries (i : Arm) (f : Entry → Entry) {s : State} (hs : CrossingLaw s) :
    CrossingLaw (s.mapEntries i f) := by
  unfold State.mapEntries
  split
  · exact hs
  · next m hm => exact law_setMove_lists hs hm rfl (by simpa using (hs.1 i m hm).2.1)

theorem law_onQueue (i : Arm) (f : List Carrier → List Carrier) {s : State} (hs : CrossingLaw s) :
    CrossingLaw (s.onQueue i f) := hs.of_sameHeld (sameHeld_onQueue i f s)

theorem law_lapse (id : CarrierId) {s : State} (hs : CrossingLaw s) : CrossingLaw (s.lapse id) := by
  unfold State.lapse
  split
  · exact hs
  · next i _ =>
    refine CrossingLaw.of_sameHeld (SameHeld.of_xu (s := (s.withdrawGrant id).onRecord i id Carrier.toLapsed) (by simp)) ?_
    exact law_onQueue _ _ (law_withdrawGrant _ hs)

/-- The law reads `xu` alone. -/
theorem CrossingLaw.xu {s t : State} (hs : CrossingLaw s) (h : t.xu = s.xu) : CrossingLaw t :=
  hs.of_sameHeld (.of_xu h)

theorem exitMove_some {s : State} {i j : Arm} (h : s.exitMove j = some i) :
    ∃ m, s.move i = some m ∧ m.exit = j ∧ m.carriers.any Entry.isCrossing = true := by
  unfold State.exitMove at h
  have := List.find?_some h
  cases hm : s.move i with
  | none => simp [hm] at this
  | some m =>
    simp only [hm, Bool.and_eq_true, beq_iff_eq] at this
    exact ⟨m, rfl, this.1, this.2⟩

/-- What an exit release does to the crossing (R66, R67). -/
theorem exitRelease_matched {s : State} {i j : Arm} {m : Movement} (h : s.exitMove j = some i) (hm : s.move i = some m) :
    (∀ i', (s.exitRelease j).move i' = if i = i' then
        (if m.carriers.eraseP Entry.isCrossing = [] then none
         else some { m with carriers := m.carriers.eraseP Entry.isCrossing })
      else s.move i')
    ∧ (∀ k, (s.exitRelease j).cell k =
        if m.carriers.eraseP Entry.isCrossing = [] ∧ k ∈ cellSet i j then s.releasedCell k else s.cell k)
    ∧ (∀ a, ((s.exitRelease j).seg a).r = (if j = a then (s.seg a).r - 1 else (s.seg a).r)
        ∧ ((s.exitRelease j).seg a).e = (if j = a then (s.seg a).e + 1 else (s.seg a).e)
        ∧ ((s.exitRelease j).seg a).x = (s.seg a).x)
    ∧ (s.exitRelease j).xu.unmatched = s.xu.unmatched ∧ (s.exitRelease j).xu.ent = s.xu.ent
    ∧ (s.exitRelease j).xu.ext = s.xu.ext ∧ (s.exitRelease j).xu.box = s.xu.box
    ∧ (s.exitRelease j).aqu = s.aqu ∧ (s.exitRelease j).jar.overdue = s.jar.overdue := by
  simp only [State.exitRelease, h, hm]
  generalize hu : State.countE j true (s.setMove i (some { m with carriers := m.carriers.eraseP Entry.isCrossing })) = u
  have hmv : ∀ i', u.move i' = if i = i' then some { m with carriers := m.carriers.eraseP Entry.isCrossing }
      else s.move i' := by
    intro i'
    rw [← move_setMove]
    subst hu; simp [State.move]
  have hc : ∀ k, u.cell k = s.cell k := by intro k; subst hu; simp [State.cell, State.setMove]
  have hs : ∀ a, (u.seg a).r = (if j = a then (s.seg a).r - 1 else (s.seg a).r)
      ∧ (u.seg a).e = (if j = a then (s.seg a).e + 1 else (s.seg a).e) ∧ (u.seg a).x = (s.seg a).x := by
    intro a
    have : ∀ v, (s.setMove i v).seg a = s.seg a := fun _ => rfl
    subst hu; simp [this]
  have hx : u.xu.unmatched = s.xu.unmatched ∧ u.xu.ent = s.xu.ent ∧ u.xu.ext = s.xu.ext ∧ u.xu.box = s.xu.box
      ∧ u.aqu = s.aqu ∧ u.jar.overdue = s.jar.overdue := by
    subst hu; simp [State.setMove]
  have hr : ∀ k, u.releasedCell k = s.releasedCell k := by
    intro k
    have : u.hld = s.hld ∧ u.scu = s.scu := by subst hu; simp
    simp [State.releasedCell, State.heldForCarrier, State.part, this.1, this.2, hx.2.2.2.2.2]
  by_cases he : m.carriers.eraseP Entry.isCrossing = []
  · simp only [he, List.isEmpty_nil, if_true, true_and]
    obtain ⟨e1, e2, e3, e4, e5, e6, e7, e8, e9⟩ := endMovement_does i j u
    refine ⟨fun i' => ?_, fun k => ?_, fun a => ?_, by rw [e3, hx.1], by rw [e4, hx.2.1],
      by rw [e5, hx.2.2.1], by rw [e6, hx.2.2.2.1], by rw [e7, hx.2.2.2.2.1], by rw [e9, hx.2.2.2.2.2]⟩
    · rw [e1, hmv]; split <;> rfl
    · rw [e2, hr, hc]
    · have : (State.endMovement i j u).seg a = u.seg a := by simp [State.seg]
      rw [this]; exact hs a
  · have hb : (m.carriers.eraseP Entry.isCrossing).isEmpty = false := by simp [he]
    simp only [hb, he, if_false, false_and, Bool.false_eq_true]
    exact ⟨hmv, hc, hs, hx⟩

theorem law_exitRelease (j : Arm) {s : State} (hs : CrossingLaw s) : CrossingLaw (s.exitRelease j) := by
  cases h : s.exitMove j with
  | some i =>
    obtain ⟨m, hm, hj, -⟩ := exitMove_some h
    obtain ⟨hmv, hc, -⟩ := exitRelease_matched h hm
    by_cases he : m.carriers.eraseP Entry.isCrossing = []
    · refine hs.of_end hm (fun j => ?_) fun k => ?_
      · rw [hmv]; simp [he]
      · rw [hc, hj]; simp [he]
    · refine hs.of_lists (fun k j => by rw [hc]; simp [he]) (fun a m' ha => ?_) fun a m' ha => ?_
      · rw [hmv] at ha
        by_cases e : i = a
        · subst e
          simp only [if_true, he, if_false, Option.some.injEq] at ha
          exact ⟨m, hm, by rw [← ha], by rw [← ha]; exact he⟩
        · rw [if_neg e] at ha
          exact ⟨m', ha, rfl, (hs.1 a m' ha).2.1⟩
      · rw [hmv]
        by_cases e : i = a
        · subst e; simp [he]
        · rw [if_neg e]; exact ⟨m', ha⟩
  | none =>
    unfold State.exitRelease
    simp only [h]
    split
    · exact hs.of_sameHeld (.of_parts (by simp [State.setUnmatched]) (by simp [State.setUnmatched]))
    · exact hs.xu (by simp)

/-! ## Hold entry and FAULTED -/

theorem law_holdEntryGrant (i : Arm) (e : Entry) {s : State} (hs : CrossingLaw s) : CrossingLaw (s.holdEntryGrant i e) := by
  unfold State.holdEntryGrant
  split
  · exact law_onQueue _ _ (law_withdrawGrant _ hs)
  · exact hs

theorem law_foldl {α : Type} {f : State → α → State} (hf : ∀ s a, CrossingLaw s → CrossingLaw (f s a)) (l : List α)
    {s : State} (hs : CrossingLaw s) : CrossingLaw (l.foldl f s) := by
  induction l generalizing s with
  | nil => exact hs
  | cons a l ih => exact ih (hf s a hs)

theorem law_holdGrants {s : State} (hs : CrossingLaw s) : CrossingLaw s.holdGrants := by
  unfold State.holdGrants
  refine law_foldl (fun t i ht => ?_) _ hs
  split
  · exact ht
  · exact law_foldl (fun u e hu => law_holdEntryGrant _ _ hu) _ ht

theorem law_endOverdue {s : State} (hs : CrossingLaw s) : CrossingLaw s.endOverdue := hs.of_sameHeld (sameHeld_endOverdue s)

theorem law_toEmergency {s : State} (hs : CrossingLaw s) : CrossingLaw (s.mapCells Cell.toEmergency) :=
  hs.of_sameHeld (sameHeld_mapCells toEmergency_held s)

/-- What hold entry and the entry into FAULTED have in common, after the cells. -/
theorem law_withdrawAll {s : State} (hs : CrossingLaw s) :
    CrossingLaw s.holdGrants.clearanceAll.suspendWalkway := (law_holdGrants hs).xu (by simp)

theorem law_dropDesignation {s : State} (hs : CrossingLaw s) : CrossingLaw s.endOverdue.dropRound :=
  (law_endOverdue hs).xu (by simp)

theorem law_holdEntry {s : State} (hs : CrossingLaw s) : CrossingLaw s.holdEntry := by
  unfold State.holdEntry
  dsimp only
  split
  · exact law_withdrawAll (law_toEmergency (law_dropDesignation hs))
  · exact law_withdrawAll (law_dropDesignation hs)

theorem law_addToHold (c : HoldCause) {s : State} (hs : CrossingLaw s) : CrossingLaw (s.addToHold c) := by
  have h1 : ∀ f, CrossingLaw (s.modHld f) := fun f => hs.xu rfl
  unfold State.addToHold
  split
  · exact h1 _
  · split
    · exact h1 _
    · exact law_toEmergency (h1 _)
  · split
    · exact h1 _
    · exact law_toEmergency (h1 _)

theorem law_addCause (c : HoldCause) {s : State} (hs : CrossingLaw s) : CrossingLaw (s.addCause c) := by
  have h1 : ∀ f, CrossingLaw (s.modHld f) := fun f => hs.xu rfl
  have h2 : CrossingLaw (if s.held then s.addToHold c else (s.modHld (Hld.add c)).holdEntry) := by
    split
    · exact law_addToHold c hs
    · exact law_holdEntry (h1 _)
  unfold State.addCause
  cases s.part <;> first | exact h2 | exact h1 _

theorem law_enterFaulted {s : State} (hs : CrossingLaw s) : CrossingLaw s.enterFaulted := by
  have key : ∀ u : State, u.xu = s.xu →
      CrossingLaw (u.endOverdue.dropRound.mapCells Cell.toEmergency).holdGrants.clearanceAll.suspendWalkway :=
    fun u hu => law_withdrawAll (law_toEmergency (law_dropDesignation (hs.xu hu)))
  unfold State.enterFaulted
  split
  · exact hs
  · apply key
    simp [State.setPart]
    split <;> simp

theorem law_overrunCheck (i : Arm) (id : CarrierId) {s : State} (hs : CrossingLaw s) :
    CrossingLaw (s.overrunCheck i id) := by
  unfold State.overrunCheck
  split
  · exact hs
  · next c _ =>
    split
    · split
      · next hr =>
        have he : c.exit ≠ c.arrival := by
          simp only [State.rescuable, State.permitted, Bool.and_eq_true, bne_iff_ne] at hr
          exact fun e => hr.1.1.1.2.1 e.symm
        exact (law_executeGrant (rescue := true) hs he).xu (by simp)
      · exact law_addCause _ (hs.xu (by simp))
    · exact hs

/-! ## The arbiter -/

theorem law_afterGrant (id : CarrierId) {s : State} (hs : CrossingLaw s) : CrossingLaw (s.afterGrant id) := by
  have h1 : CrossingLaw (s.raiseSkips id) := hs.xu (by simp)
  have h2 : CrossingLaw (s.raiseSkips id).seekOverdue := by
    unfold State.seekOverdue
    split
    · exact h1
    · split
      · exact h1
      · next c _ =>
        refine h1.of_sameHeld ⟨by simp [State.designate, State.mapCellsIn, State.putQueue], fun k i => ?_⟩
        have : ∀ u : State, u.trigger.cell k = u.cell k := fun u => by simp [State.cell]
        rw [State.designate, this, cell_mapCellsIn]
        split
        · exact reserveFor_held _ _ _
        · rfl
  exact h2.xu (by simp [State.afterGrant])

theorem law_followOnTest (i : Arm) {s : State} (hs : CrossingLaw s) : CrossingLaw (s.followOnTest i) := by
  unfold State.followOnTest
  split
  · exact hs
  · exact hs
  · split
    · exact law_afterGrant _ (law_executeFollowOn _ hs)
    · exact hs

theorem law_round {s : State} (hs : CrossingLaw s) : CrossingLaw s.round := by
  have h1 : CrossingLaw ({ s with jar := { s.jar with due := false } } : State) := hs.xu rfl
  have h2 : CrossingLaw ({ s with jar := { s.jar with due := false } } : State).testOverdueExit := by
    unfold State.testOverdueExit
    repeat' split
    · exact h1
    · exact h1
    · exact law_endOverdue h1
  unfold State.round
  dsimp only
  generalize hu : ({ s with jar := { s.jar with due := false } } : State).testOverdueExit = u at h2
  have h3 := law_foldl (f := State.followOnTest) (fun t i ht => law_followOnTest i ht) u.jar.armOrder h2
  generalize u.jar.armOrder.foldl State.followOnTest u = v at h3
  unfold State.grantCandidate
  split
  · exact h3
  · next c hc =>
    have he : c.exit ≠ c.arrival := by
      have := List.find?_some hc
      simp only [State.eligible, State.routeOpen, State.permitted, Bool.and_eq_true, bne_iff_ne] at this
      exact fun e => this.1.1.1.2.1 e.symm
    exact law_afterGrant _ ((law_executeGrant (rescue := false) h3 he).xu rfl)

end Sys2Proof.Machine
end

