-- ==== Sys2Proof/WellFormed.lean ====
section
/-! DEFINITION. Which commands the outside world can send: the operands whose type is wider than what the rules let
arrive. The meanings are total, on an ill-formed command too. -/

namespace Sys2Proof

/-- The operands are ones the part's links and port can deliver. -/
def Instr.wf : Instr → Bool
  | .powerOn => true
  | .rstNAssert => true
  | .rstNDeassert => true
  | .loadingComplete _ => true
  | .referenceStage _ _ => true
  | .referenceEdgeMissing => true
  | .clockLoss => true
  | .listeningWindowExpiry => true
  | .crossingQuietExpiry => true
  | .recheckExpiry => true
  | .configWriteComplete => true
  | .armLinkByteGap _ => true
  | .announce _ _ _ _ _ _ _ _ => true
  | .position _ _ _ _ => true
  | .withdraw _ _ => true
  | .sendClearance _ => true
  | .sendRefusal _ => true
  | .carrierMute id => id != 0            -- a record's ID is 1 to 4095 (R22)
  | .arbitrationRound => true
  | .detectorFilterChange _ => true
  | .detectorFault input => input != .button   -- the button has no stuck supervision (R144)
  | .startWindowExpiry id => id != 0
  | .crossingStall id => id != 0
  | .holdTimerExpiry _ => true
  | .quietProof _ => true
  | .floorReportReceived f _ => f.entries.length ≤ 4   -- an entry count above 4 never completes (R125)
  | .reportRequestReceived _ _ => true
  | .neighbourSilent _ => true
  | .lineIdle => true
  | .receiveGap => true
  | .attemptStart => true
  | .frameSent => true
  | .lostLine => true
  | .backoffExpiry => true
  | .periodicTimerExpiry => true
  | .spacingElapsed => true
  | .lineFault => true
  | .intervalExpiry => true
  | .walkwayBlocked => true
  | .openTimerExpiry => true
  | .settleTimerExpiry => true
  | .idleFrame _ => true
  | .badCommandFrame code => code != 0    -- a first byte of 0x00 is the idle frame (R187)
  | .readStatus => true
  | .readEvents => true
  | .acknowledgeEvents _ => true
  | .setMask _ => true
  | .readQueue _ => true
  | .readCrossing => true
  | .readSegment _ => true
  | .readNeighbour _ => true
  | .readConfig => true
  | .closeArm _ => true
  | .openArm _ => true
  | .stop => true
  | .release => true
  | .confirmClearCrossing => true
  | .confirmClearArm target => target != 0x0F   -- that target names the crossing (R187)
  | .purgeCarrier _ => true
  | .setWalkway _ _ => true
  | .writeConfig image => image.length = 184    -- any other length fails the frame checks (R178)
  | .restart => true
  | .armLinkMessageDiscard _ => true
  | .floorCharacterReceived _ _ => true
  | .responseReady => true

end Sys2Proof
end

