-- ==== Sys2Proof/Tests/Slice0.lean ====
section
/-! SUPPORT. The author's own tests: the checks of WellFormed refuse their ill-formed terms; worked figures of the spec; and,
for each statement with hypotheses, states and operands that meet them. Each is about one step, on a small state. -/

namespace Sys2Proof.Tests

open Sys2Proof Sys2Proof.Machine

/- One test after another: a test by the kernel waits for the kernel, and many that wait at once take a thread each. -/
set_option Elab.async false

/-! ## Small states -/

/-- A present arm with its neighbour's address. -/
def armTo (n : Nat) : ArmConfig := ⟨true, true, true, true, false, true, n, .twoWay, 5, 100, 30, [⟨500, 100⟩, ⟨2000, 200⟩]⟩

/-- Node 9: arm 0 is the lock end toward node 14, arm 2 the far end toward node 3, arm 1 a spur with the walkway, arm 3 a
spur. -/
def cfg : JunctionConfig :=
  { Image.default with
    nodeAddress := 9
    crossingProof := true
    boxFitted := true
    walkMode := .onDemand
    arms := ⟨armTo 14, { armTo 0 with walkway := true }, armTo 3, armTo 0⟩
    paths := .build fun i => .build fun j => if i = j then Image.defaultPath else ⟨true, 500⟩ }

/-- The same without a neighbour and with arm 3 absent. -/
def cfgSpurs : JunctionConfig := { cfg with arms := ⟨armTo 0, armTo 0, armTo 0, Image.defaultArm⟩, walkMode := .cyclic }

/-- An ACTIVE end in OUTBOUND with an empty lane. -/
def openEnd : SegEnd := { SegEnd.initial false with unsure := false, dir := .outbound }

/-- A part in a part state, its start-up timers running, its ends ACTIVE, its cells FREE. -/
def inPart (p : PartState) : State :=
  { State.reset with
    scu := { State.reset.scu with
      part := p, cfg := cfg, epoch := 7, onReference := true, monitor := true, listening := .running 0,
      crossingQuiet := .running 0, recheck := .running 0 }
    segs := .fill openEnd
    xu := { State.reset.xu with cells := .fill .free } }

/-- The same with another configuration. -/
def inPartOf (c : JunctionConfig) (p : PartState) : State := { inPart p with scu := { (inPart p).scu with cfg := c } }

/-- A WAITING record of class 2 on arm 0 for exit 1. -/
def waiting : Carrier := ⟨5, 0, 2, false, 1, 200, 900, 100, 0, .waiting, false, 0, false⟩

/-- The part with a queue on arm 0. -/
def queued (q : List Carrier) (s : State) : State := { s with aqu := { s.aqu with queues := s.aqu.queues.set 0 q } }

/-- The part with a movement record from arm 0 to arm 1, its cell held. -/
def moving (l : List Entry) (s : State) : State :=
  { s with
    xu := { s.xu with moves := s.xu.moves.set 0 (some ⟨1, l, 0, false⟩), cells := s.xu.cells.set 0 (.held 0) } }

def grantedEntry5 : Entry := ⟨5, 2, .granted (.running 0) false⟩

def crossingEntry5 : Entry := ⟨5, 2, .crossing (.running 0) false⟩

/-- RUNNING, carrier 5 granted from arm 0 to arm 1. -/
def granted : State := moving [grantedEntry5] (queued [{ waiting with state := .granted }] (inPart .running))

/-- A filter whose level is active. -/
def active : Filter := ⟨⟨true, true, .stopped⟩, .running 0, false⟩

/-- RUNNING, held by its hold causes. -/
def heldBy (h : Hld) : State := { inPart .running with hld := h }

def lowLevels : RawLevels := ⟨.fill false, .fill false, false, false⟩

/-- The part with a queue on arm 2. -/
def queued2 (q : List Carrier) (s : State) : State := { s with aqu := { s.aqu with queues := s.aqu.queues.set 2 q } }

/-- A WAITING record on arm 2 for exit 3. -/
def waiting2 : Carrier := { waiting with id := 6, arrival := 2, exit := 3 }

/-- The same, designated overdue. -/
def designated2 : Carrier := { waiting2 with overdue := true, skip := 1 }

/-- The part with carrier 6 of arm 2 designated overdue, its cell reserved. -/
def designating2 (s : State) : State :=
  { queued2 [designated2] s with
    jar := { s.jar with overdue := some ⟨6, 2, 3⟩ }
    xu := { s.xu with cells := s.xu.cells.set 2 (.reserved 6) } }

/-- RUNNING, carrier 5 granted on arm 0 and carrier 6 of arm 2 designated overdue. -/
def beside : State := designating2 granted

/-- The next state of a command, or the state itself. -/
def after (c : Instr) (s : State) : State :=
  match exec c s with
  | .next t => t
  | _ => s

/-! ## WellFormed refuses -/

theorem test_wf_carrierMute : (Instr.carrierMute 0).wf = false := by decide
theorem test_wf_startWindow : (Instr.startWindowExpiry 0).wf = false := by decide
theorem test_wf_crossingStall : (Instr.crossingStall 0).wf = false := by decide
theorem test_wf_buttonFault : (Instr.detectorFault .button).wf = false := by decide
theorem test_wf_fiveEntries :
    (Instr.floorReportReceived ⟨1, 1, 1, List.replicate 5 ⟨0, 0, 0, 0, 0, 0, 0, 0, 0, 0, 0, 0⟩⟩ false).wf = false := by
  decide
theorem test_wf_idleCode : (Instr.badCommandFrame 0).wf = false := by decide
theorem test_wf_crossingTarget : (Instr.confirmClearArm 0x0F).wf = false := by decide
theorem test_wf_shortImage : (Instr.writeConfig [0, 1]).wf = false := by decide
theorem test_wf_accepts : (Instr.purgeCarrier 0).wf = true ∧ Instr.stop.wf = true := by decide

/-! ## Figures of the spec -/

/-- R184: the CRC-8 of the single byte 0x00. -/
theorem test_crc8 : Layout.crc8 [0] = 0xF3 := by decide

/-- The zone lookup examples (R8). -/
def zones : List Zone := Image.truncate [⟨300, 60⟩, ⟨1500, 150⟩, ⟨4000, 250⟩, ⟨2500, 500⟩]

theorem test_zones : zones = [⟨300, 60⟩, ⟨1500, 150⟩, ⟨4000, 250⟩]
    ∧ [0, 299, 300, 1499, 1500, 9000].map (zoneIndex zones) = [0, 0, 1, 1, 2, 2] := by decide

/-- The configuration of the worked cases of chapter 3. -/
def cfgCases : JunctionConfig :=
  { cfg with
    arms := ⟨{ armTo 0 with exitClearance := 400 }, { armTo 0 with zones := zones },
      { armTo 0 with zones := [⟨5000, 250⟩] }, { armTo 0 with exitClearance := 500 }⟩
    paths := .build fun i => .build fun j => ⟨true, if i = 1 ∧ j = 3 then 1200 else 1600⟩ }

/-- A class 2 record of the worked cases. -/
def caseRecord (i j : Arm) (d v : Nat) (st : CarrierState) : Carrier :=
  { waiting with arrival := i, exit := j, distance := d, speed := v, state := st }

theorem test_case1 : queuedClearance cfgCases (caseRecord 1 3 1000 120 .waiting) none = (1000, 150) := by decide +kernel
theorem test_case2 : queuedClearance cfgCases (caseRecord 1 3 1000 120 .granted) none = (2700, 150) := by decide +kernel
theorem test_case3 : queuedClearance cfgCases (caseRecord 1 3 400 150 .waiting) none = (400, 116) := by decide +kernel
theorem test_case4 : queuedClearance cfgCases (caseRecord 1 3 80 60 .waiting) none = (80, 60) := by decide +kernel
theorem test_case5 : [(600, 200), (300, 150), (150, 120)].map
    (fun p => queuedClearance cfgCases (caseRecord 2 0 p.1 p.2 .granted) none)
      = [(2600, 200), (2300, 200), (2150, 170)] := by decide +kernel
theorem test_case6 : queuedClearance cfgCases (caseRecord 2 0 150 120 .lapsed) none = (150, 120)
    ∧ committed cfgCases 2 150 120 = false ∧ committed cfgCases 2 150 121 = true := by decide +kernel
theorem test_case7 :
    let leader := { caseRecord 1 3 200 0 .waiting with length := 120 }
    queuedClearance cfgCases (caseRecord 1 3 480 60 .waiting) (some leader) = (80, 74)
      ∧ queuedClearance cfgCases (caseRecord 1 3 300 60 .waiting) (some leader) = (0, 0) := by decide +kernel
theorem test_case8 : crossingClearance cfgCases 2 1 3 = (1700, 100) := by decide +kernel
theorem test_case9 : committed cfgCases 0 60 400 = true := by decide +kernel
theorem test_case10 :
    queuedClearance cfgCases (caseRecord 2 0 64000 200 .granted) none = (65535, 200) := by decide +kernel

/-- The backoffs of node 12 (R122). -/
theorem test_backoff : [1, 2, 3, 4].map (backoffLength 12) = [96, 336, 576, 48] := by decide

/-- The limit examples (R98). -/
theorem test_limits :
    SegEnd.openLimit 6 { openEnd with eN := 250, rN := 1, occ := 3 } = 253
    ∧ SegEnd.openLimit 6 { openEnd with eN := 250 } = 0
    ∧ SegEnd.headroom { openEnd with e := 250, r := 1, heldLimit := 253 } = 2
    ∧ SegEnd.headroom { openEnd with e := 250, heldLimit := 0 } = 6
    ∧ SegEnd.farCommitted { openEnd with eN := 250, rN := 2 } = 252 := by decide

/-- The first frame of a node with address 5 and epoch 7. -/
theorem test_request : (inPartOf { cfg with nodeAddress := 5 } .listening).buildRequest = [0x5B, 5, 7, 0xB1, 0xED] := by
  decide +kernel

set_option maxRecDepth 1000000 in
/-- The image of a configuration loads. -/
theorem test_image : Image.load (Image.bytes cfg) = some cfg := by decide +kernel

/-! ## One step of each kind of command -/

theorem test_withFetchWord : State.reset.withFetchWord 8 0 = State.reset := by decide
theorem test_announce : ((after (.announce 0 5 2 false 1 200 900 100) (inPart .running)).queue 0) = [waiting] := by
  decide +kernel
theorem test_round : (after .arbitrationRound { queued [waiting] (inPart .running) with
    jar := { Jar.initial with due := true } }).move 0 = some ⟨1, [grantedEntry5], 0, false⟩ := by decide +kernel
theorem test_entry : (after (.detectorFilterChange (.ent 0)) granted).move 0 = some ⟨1, [crossingEntry5], 0, false⟩
    ∧ (after (.detectorFilterChange (.ent 0)) granted).queue 0 = [] := by decide +kernel
theorem test_exit : (after (.detectorFilterChange (.ext 1)) { moving [crossingEntry5] (inPart .running) with
    xu := { (moving [crossingEntry5] (inPart .running)).xu with ext := (Quad.fill .initial).set 1 active } }).move 0
      = none := by decide +kernel
theorem test_lapse : ((after (.startWindowExpiry 5) granted).recordOn 0 5).map Carrier.state = some .lapsed := by
  decide +kernel
theorem test_overrun : (after (.position 0 5 10 400) (queued [{ waiting with exit := 2 }]
    { inPart .running with segs := .fill (.initial false) })).hld.overrun = true := by decide +kernel
theorem test_rescue : (after (.position 0 5 10 400) (queued [waiting] (inPart .running))).flagged .rescue = true := by
  decide +kernel
theorem test_stop : (after .stop (inPart .running)).beacon = true := by decide +kernel
theorem test_responseBytes : Response.bytes .none = [0, 0, 0, 0, 0, 0x0C, 0x11] := by decide +kernel

/-- The characters of a WITHDRAW, bit by bit on a link, put its row in the queue; a message begun before that row is taken
goes on (R18). -/
def heard : State :=
  (sealMessage [0x13, 6, 5, 0]).foldl (fun s b => s.linkBits 0 (charBits b)) (inPart .running)

theorem test_linkBits : heard.pending = [.withdraw 0 5] ∧ heard.aqu.linkRx.get 0 = ⟨none, 1⟩ := by decide +kernel
theorem test_noSecondHunt :
    ((after (.withdraw 0 5) (heard.linkBits 0 (charBits 0xC3))).aqu.linkRx.get 0) = ⟨some [0xC3], 0⟩
    ∧ (after (.withdraw 0 5) (inPart .running)).aqu.linkRx.get 0 = .initial := by decide +kernel

/-- An input that differs for the debounce time turns its filter; a shorter change does not (R61). -/
def sensed : State := (inPart .running).senseInput (.ent 0) true

theorem test_debounce : (sensed.xu.ent.get 0).input = ⟨false, true, .running 0⟩
    ∧ (sensed.senseInput (.ent 0) false).xu.ent.get 0 = .initial
    ∧ ((sensed.tick).xu.ent.get 0).input.timer = .running 1 := by decide

/-- The same after the debounce time. -/
def turned : State :=
  { sensed with
    xu := { sensed.xu with ent := sensed.xu.ent.set 0 ⟨⟨false, true, .running cfg.debounce⟩, .stopped, false⟩ } }

theorem test_debounceEnds : turned.owed = some (.detectorFilterChange (.ent 0))
    ∧ ((after (.detectorFilterChange (.ent 0)) turned).xu.ent.get 0).input = ⟨true, true, .stopped⟩ := by decide +kernel

/-- The bits of a STOP frame on SDI, the most significant bit of each byte first (R176). -/
def clocked : State :=
  ((Layout.withCrc16 [0x12]).flatMap portBits).foldl (fun s b => s.clockPort b) (inPart .running).selectPort

theorem test_portBits : clocked.deselectPort.pending = [.stop] ∧ clocked.deselectPort.mtp.transaction = none
    ∧ (after .restart clocked).deselectPort.pending = [] := by decide +kernel
theorem test_sdo : (inPart .running).sdo = none ∧ (inPart .running).selectPort.sdo = some false
    ∧ (List.range 8).map (fun k => Response.streamBit (.ok 0x12) (8 + k))
      = [false, false, false, true, false, false, true, false]
    ∧ Response.streamBit (.ok 0x12) 1000 = false := by decide +kernel

/-- A response that becomes READY in the course of a transaction: SDO goes on with the stream that the transaction began
with, and the response is kept whole for the next one (R177). -/
def readyMeanwhile : State := after .responseReady (after .stop (inPart .running)).selectPort

theorem test_readyMeanwhile : readyMeanwhile.mtp.buffer = .ready (.ok 0x12)
    ∧ readyMeanwhile.mtp.transaction = some ⟨[], .notReady⟩
    ∧ (after (.idleFrame 800) readyMeanwhile.deselectPort).mtp.buffer = .ready (.ok 0x12)
    ∧ (after (.idleFrame 800) readyMeanwhile.deselectPort).mtp.sdo = .notReady
    ∧ (after (.idleFrame 800) (readyMeanwhile.deselectPort.selectPort.deselectPort)).mtp.carried = [.ok 0x12]
    ∧ (after (.idleFrame 800) readyMeanwhile).mtp.buffer = .empty := by decide +kernel

/-- The line after a character and `n` recessive bits. -/
def lineAfter (n : Nat) : State :=
  (charBits 0x5A ++ List.replicate n true).foldl (fun s level => s.lineBit level) (inPart .listening)

theorem test_lineBit : (lineAfter 2).pending = [.floorCharacterReceived 0x5A true] ∧ (lineAfter 2).fli.rx.rest = 3
    ∧ (lineAfter 11).pending = [.floorCharacterReceived 0x5A true, .lineIdle] ∧ (lineAfter 11).lineIdle = true
    ∧ ((lineAfter 11).lineBit false).lineIdle = false
    ∧ (after .lineIdle ((lineAfter 11).lineBit false)).lineIdle = false
    ∧ (lineAfter 31).pending = [.floorCharacterReceived 0x5A true, .lineIdle, .receiveGap] := by decide +kernel

/-! ## Hypotheses that are met

One theorem for each statement with hypotheses: the states and operands named meet them, clause by clause. -/

/-- A statement about every record of an arm without one. -/
theorem noMove {o : Option Movement} {p : Movement → Prop} (h : o = none) : ∀ m, o = some m → p m := by
  intro m hm; rw [h] at hm; cases hm

/-- The crossing's law, read arm by arm. -/
theorem lawOf {s : State}
    (h : ∀ i, (s.move i).all (fun m =>
      decide (m.exit ≠ i ∧ m.carriers ≠ [] ∧ ∀ k ∈ cellSet i m.exit, s.cell k = .held i)) = true)
    (h' : ∀ k i, s.cell k = .held i → (s.move i).any (fun m => decide (k ∈ cellSet i m.exit)) = true) : CrossingLaw s := by
  refine ⟨fun i m hm => ?_, fun k i hk => ?_⟩
  · simpa [hm] using h i
  · have := h' k i hk
    cases hm : s.move i with
    | none => simp [hm] at this
    | some m => exact ⟨m, rfl, by simpa [hm] using this⟩

/-- A law about every record of an option, read from a check. -/
theorem ofAll {α : Type} {o : Option α} {p : α → Prop} [DecidablePred p] (h : o.all (fun m => decide (p m)) = true) :
    ∀ m, o = some m → p m := by
  rintro m rfl; simpa using h

/-- The law of the queues, read from a check. -/
theorem queueLawOf {s : State} (h : ∀ i, ∀ c ∈ s.queue i, c.arrival = i)
    (h' : s.jar.overdue.all (fun o => (s.head o.arrival).any
      fun h => decide (h.id = o.id ∧ h.state = .waiting ∧ h.exit = o.exit)) = true) : QueueLaw s := by
  refine ⟨h, fun o ho => ?_⟩
  rw [ho] at h'
  cases hh : s.head o.arrival with
  | none => simp [hh] at h'
  | some c => exact ⟨c, rfl, by simpa [hh] using h'⟩

/-- The law of the grants, read from checks. -/
theorem grantLawOf {s : State} (h : ∀ i, ((s.queue i).map Carrier.id).Nodup)
    (h' : ∀ i j, i ≠ j → ∀ c ∈ s.queue i, ∀ d ∈ s.queue j, c.id ≠ d.id)
    (hm : ∀ i, (s.move i).all (fun m => decide ((∀ e ∈ m.carriers, e.status.isGranted = true →
      ∃ c ∈ s.queue i, c.id = e.id ∧ c.state = .granted ∧ c.exit = m.exit)
      ∧ ((m.carriers.filter fun e => e.status.isGranted).map Entry.id).Nodup)) = true)
    (hc : ∀ i, ∀ c ∈ s.queue i, c.state = .granted →
      (s.move i).any (fun m => decide (∃ e ∈ m.carriers, e.grantedTo c.id = true)) = true)
    (hp : ∀ i, s.move i ≠ none → s.part = .running ∨ s.part = .faulted) : GrantLaw s := by
  refine ⟨h, h', fun i m e => (ofAll (hm i) m e).1, fun i c hq hg => ?_, fun i m e => (ofAll (hm i) m e).2, hp⟩
  have := hc i c hq hg
  cases hs : s.move i with
  | none => simp [hs] at this
  | some m => exact ⟨m, rfl, by simpa [hs] using this⟩

theorem granted_queueLaw : QueueLaw granted := queueLawOf (by decide) (by decide)
theorem granted_grantLaw : GrantLaw granted :=
  grantLawOf (by decide) (by decide) (by decide) (by decide) (by decide)
theorem beside_queueLaw : QueueLaw beside := queueLawOf (by decide) (by decide)
theorem beside_grantLaw : GrantLaw beside :=
  grantLawOf (by decide) (by decide) (by decide) (by decide) (by decide)

/-- A designation that is for another record than the one of carrier 5 on arm 0. -/
theorem beside_spares : DesignationSpares beside 0 5 :=
  ⟨beside_queueLaw, ofAll (o := beside.jar.overdue) (by decide)⟩

/-- Carrier 7 waits on arm 2 behind carrier 6, which is designated. -/
def behind2 : State :=
  let q := [designated2, { designated2 with id := 7, exit := 1, distance := 1500, overdue := false, skip := 0 }]
  { beside with aqu := { beside.aqu with queues := beside.aqu.queues.set 2 q } }

theorem behind2_spares : DesignationSpares behind2 2 7 ∧ (∃ o ∈ behind2.jar.overdue, o.arrival = 2)
    ∧ (behind2.recordOn 2 7).isSome = true ∧ behind2.queuedOn 7 = some 2
    ∧ (behind2.head 2).map Carrier.id ≠ some 7 ∧ behind2.present 2 = true :=
  ⟨⟨queueLawOf (by decide) (by decide), ofAll (o := behind2.jar.overdue) (by decide)⟩, by decide⟩

theorem witness_idle : (inPart .running).pending = [] ∧ (inPart .running).owed = none
    ∧ (inPart .running).scu.rstHeld = false ∧ (State.fresh .resetPin 0 .neverWritten true 0 []).scu.rstHeld = true
    ∧ ({ inPart .running with jar := { Jar.initial with due := true } }).owed = some .arbitrationRound := by decide +kernel

/-- Held for a carrier with the box empty, the detectors quiet and its queues empty. -/
def settling : State := heldBy ⟨true, false, false, .stopped⟩

theorem witness_EndOfEvent : settling.heldForCarrier = true ∧ settling.part = .running ∧ settling.releasable = true
    ∧ ({ settling with xu := { settling.xu with unmatched := [⟨0, none, none, .box⟩] } }).releasable = false
    ∧ ¬ ((inPart .running).heldForCarrier = true)
    ∧ (inPart .running).provesQuiet 1 = true := by decide +kernel

/-- A change report falls due at the end of an event that raises E of the spur, whose end is UNSURE: its quiet timer
restarts, or starts where the end was not UNSURE before. -/
theorem witness_EndOfEventChanges :
    let g : SegEnd := { openEnd with unsure := true, quiet := .running 7 }
    let old := { inPart .running with segs := (Quad.fill openEnd).set 1 g }
    let u := { inPart .running with segs := (Quad.fill openEnd).set 1 { g with e := 1 } }
    old.part.working = true ∧ u.present 1 = true ∧ (old.seg 1).e ≠ (u.seg 1).e ∧ u.role 1 ≠ .far
    ∧ (u.arm 1).quietProof = true ∧ (u.seg 1).unsure = true ∧ (old.seg 1).unsure = true
    ∧ (u.seg 1).quiet.isRunning = true ∧ ((inPart .running).seg 1).unsure = false
    ∧ (State.finish old u).fli.tx.changeWaiting = true ∧ ((State.finish old u).seg 1).quiet = .running 0
    ∧ ((State.finish (inPart .running) old).seg 1).quiet = .running 0
    ∧ u.part.reporting = true ∧ u.fli.tx.state = .idle ∧ u.fli.tx.spacing = .expired := by decide +kernel

theorem witness_Restarts : (inPart .unconfigured).scu.rstHeld = false
    ∧ ({ (inPart .unconfigured).scu with writing := some [] }).writing = some [] := by decide
theorem witness_RstN : (State.fresh .resetPin 0 .neverWritten true 0 []).scu.rstHeld = true := by decide

theorem witness_Loading : State.reset.scu.rstHeld = false ∧ State.reset.part = .loading
    ∧ State.reset.scu.store.load = none := by decide
theorem witness_LoadingImage : (Store.written (Image.bytes cfg)).load = some cfg := test_image
theorem witness_LoadingChecks : (cfg.arms.get 1).neighbour = (cfg.arms.get 3).neighbour ∧ (cfg.arms.get 1).neighbour = 0
    ∧ cfg.nodeAddress < (cfg.arms.get 0).neighbour ∧ (cfg.arms.get 2).neighbour < cfg.nodeAddress := by decide

theorem witness_NoImage : ([] : List Byte).length ≠ 184 := by decide
theorem witness_ImageOffsets :
    [((0 : Arm), (1 : Arm)), (0, 2), (0, 3), (1, 0), (1, 2), (1, 3), (2, 0), (2, 1), (2, 3), (3, 0), (3, 1), (3, 2)][(7 : Fin 12).val]?
      = some (2, 1) := by decide

/-- SETTLING, with a required stage. -/
def stageOf (n : Nat) (c : JunctionConfig) : State := inPartOf { c with refStage := n } .settling

theorem witness_ReferenceStages : (stageOf 1 cfg).scu.stages + 1 = (stageOf 1 cfg).cfg.refStage
    ∧ (stageOf 1 cfg).allLive = false ∧ (stageOf 1 cfgSpurs).allLive = true
    ∧ (stageOf 5 cfg).scu.stages + 1 ≠ (stageOf 5 cfg).cfg.refStage := by decide

theorem witness_Recovering : (inPart .listening).scu.listening.isRunning = true
    ∧ (inPart .recovering).scu.crossingQuiet.isRunning = true ∧ (inPart .recovering).xu.unmatched = []
    ∧ (inPart .recovering).xu.box.level = false ∧ (inPart .recovering).held = false
    ∧ (inPart .recovering).walkWorking = true ∧ (inPart .recovering).fli.tx.spacing = .expired := by decide

/-- LISTENING, the transmitter with a REPORT REQUEST in a state, or with none when IDLE. -/
def asking (state : TxState) (spacing : Timer) : State :=
  { inPart .listening with fli := { (inPart .listening).fli with tx := { Transmitter.initial with
      state := state, pending := if state = .idle then none else some .request, spacing := spacing } } }

theorem witness_LeavesListening : (asking .idle .expired).fli.tx.state = .idle
    ∧ (asking .idle (.running 0)).fli.tx.pending = none ∧ (asking .idle (.running 0)).fli.tx.spacing ≠ .expired
    ∧ (asking .sending .expired).fli.tx.state = .sending
    ∧ (asking .backoff (.running 0)).fli.tx.pending = some .request ∧ (asking .backoff (.running 0)).fli.tx.state ≠ .sending
    ∧ (asking .waiting .expired).part = .listening ∧ (asking .waiting .expired).scu.listening.isRunning = true := by
  decide

/-- An unmatched entry. -/
def boxed : Unmatched := ⟨0, none, none, .box⟩

/-- The part with an unmatched list. -/
def unmatchedIn (l : List Unmatched) (s : State) : State := { s with xu := { s.xu with unmatched := l } }

theorem witness_RecoveringNot : (unmatchedIn [boxed] (inPart .recovering)).xu.unmatched ≠ []
    ∧ (unmatchedIn [boxed] (inPart .recovering)).scu.crossingQuiet.isRunning = true := by decide

theorem witness_Faulted : (inPart .listening).part.working = true ∧ (inPart .listening).part ≠ .faulted
    ∧ (inPart .listening).scu.onReference = true ∧ (inPart .listening).scu.monitor = true
    ∧ (inPart .listening).scu.recheck.isRunning = true
    ∧ (inPart .listening).scu.cfgCrc ≠ some (Layout.crc16 (Image.body (inPart .listening).cfg))
    ∧ (9 : Byte).toNat = (inPart .listening).cfg.nodeAddress := by decide
theorem witness_Recheck : let s := { (inPart .running).scu with cfgCrc := some (Layout.crc16 (Image.body cfg)) }
    s.recheck.isRunning = true ∧ s.cfgCrc = some (Layout.crc16 (Image.body s.cfg)) := ⟨rfl, rfl⟩
theorem witness_FaultedAgain : (inPart .faulted).part = .faulted ∧ (inPart .faulted).scu.onReference = true
    ∧ (inPart .faulted).scu.monitor = true ∧ (inPart .faulted).scu.recheck.isRunning = true
    ∧ (inPart .faulted).scu.cfgCrc ≠ some (Layout.crc16 (Image.body (inPart .faulted).cfg))
    ∧ (9 : Byte).toNat = (inPart .faulted).cfg.nodeAddress := by decide
theorem witness_FaultedAgreeing :
    let s := { inPart .faulted with
      scu := { (inPart .faulted).scu with cfgCrc := some (Layout.crc16 (Image.body cfg)) } }
    s.part = .faulted ∧ s.scu.recheck.isRunning = true ∧ s.scu.cfgCrc = some (Layout.crc16 (Image.body s.cfg)) :=
  ⟨rfl, rfl, rfl⟩
theorem witness_FaultedLaw : CrossingLaw granted := lawOf (by decide +kernel) (by decide +kernel)
theorem witness_FaultedLimit : let s := { inPart .running with segs := .fill { openEnd with dir := .inbound } }
    s.limitOpen 0 (s.seg 0) = true := by decide

theorem witness_LinkReceiver : LinkReceiver.initial.ended = 0 ∧ (⟨none, 1⟩ : LinkReceiver).ended = 0 + 1
    ∧ ((inPart .running).aqu.linkRx.get 0).message = none
    ∧ ((heard.linkBits 0 (charBits 0xC3)).aqu.linkRx.get 0).message ≠ none ∧ heard.present 0 = true := by decide +kernel
theorem witness_LinkMessage : (heard.linkBits 0 (charBits 0xC3)).present 0 = true
    ∧ ([0xC3] ++ [0x11] : List Byte)[1]? = some 0x11 ∧ ([0xC3] ++ [0x99] : List Byte)[1]? ≠ some 0x13 ∧ 30 < 31
    ∧ ([0xC3] : List Byte) ≠ [] := by decide +kernel

/-- Six bytes that no message of a link has, for they do not begin with the sync byte. -/
theorem witness_LinkDiscard : let l : List Byte := List.replicate 6 0
    (∀ body, l = 0xC3 :: body ++ [Layout.crc8 body] → body[1]? ≠ some (BitVec.ofNat 8 l.length)) ∧ 6 ≤ l.length
    ∧ l.length ≤ 13 :=
  ⟨fun _ h => absurd (congrArg List.head? h) (by simp [List.replicate]), by decide, by decide⟩
theorem witness_Messages : (inPart .settling).part.working = false ∧ (inPartOf cfgSpurs .running).present 3 = false
    ∧ (inPart .listening).present 0 = true ∧ (inPart .faulted).present 0 = true := by decide

/-- The same record under another ID. -/
def other (id : CarrierId) : Carrier := { waiting with id := id }

/-- Arm 0 closed by a command. -/
def closed0 : State := { inPart .running with closures := (Quad.fill ⟨false, false⟩).set 0 ⟨true, false⟩ }

theorem witness_AnnounceRefusals : let s := queued [other 1, other 2, other 3, other 4] (inPart .running)
    announceReason closed0 0 5 1 400 = some .armClosed ∧ announceReason s 0 0 1 400 = some .badField
    ∧ announceReason s 0 5 1 401 = some .badField ∧ announceReason s 0 5 0 400 = some .noRoute
    ∧ announceReason s 2 4 1 400 = some .duplicate ∧ announceReason s 0 5 1 400 = some .armFull
    ∧ (∀ c ∈ s.queue 0, c.id ≠ 5) ∧ (∀ c ∈ s.queue 2, c.id ≠ 4) := by decide +kernel

theorem witness_AnnounceInserts : let s := queued [other 1, other 2, other 3] (inPart .running)
    announceReason s 0 5 1 400 = none ∧ (∀ c ∈ s.queue 0, c.id ≠ 5) ∧ s.jar.overdue = none
    ∧ committed s.cfg 2 900 (min 400 100) = false := by decide +kernel
theorem witness_AnnounceBeside : beside.present 0 = true ∧ (∀ c ∈ beside.queue 0, c.id ≠ 7)
    ∧ announceReason beside 0 7 1 400 = none ∧ QueueLaw beside ∧ beside.jar.overdue ≠ none :=
  ⟨by decide, by decide, by decide +kernel, beside_queueLaw, by decide⟩
theorem witness_AnnounceBehind : announceReason behind2 2 8 1 400 = none ∧ (∀ c ∈ behind2.queue 2, c.id ≠ 8)
    ∧ (insertRecord { designated2 with id := 8, distance := 2000 } (behind2.queue 2)).head? = behind2.head 2 := by
  decide +kernel

theorem witness_Reannounce : let s := queued [waiting] (inPart .running)
    s.recordOn 0 5 = some waiting ∧ (400 : Half).toNat ≤ 400 ∧ 400 < (401 : Half).toNat
    ∧ ¬ ((1 : Arm) = 0 ∨ s.outbound 1 = false ∨ (s.path 0 1).permitted = false)
    ∧ waiting.state ≠ .granted ∧ committed s.cfg 2 900 100 = false := by decide
theorem witness_ReannounceGranted : (granted.recordOn 0 5).map Carrier.state = some .granted
    ∧ (granted.recordOn 0 5).map Carrier.exit ≠ some 2 ∧ granted.outbound 2 = true
    ∧ committed granted.cfg 2 0 400 = true ∧ committed granted.cfg 2 900 100 = false ∧ granted.grantOf 5 = some 0
    ∧ (granted.move 0).isSome = true := by decide

theorem witness_Position : (queued [waiting] (inPart .running)).queuedOn 5 = some 0
    ∧ (queued [waiting] (inPart .running)).lapseDeferred 5 = false ∧ committed cfg 2 900 (min 400 100) = false
    ∧ granted.queuedOn 5 = some 0 ∧ granted.lapseDeferred 5 = false ∧ committed cfg 2 0 (min 400 400) = true := by
  decide +kernel

/-- The start window of carrier 5 has expired while it was committed. -/
def deferred : State := moving [⟨5, 2, .granted .expired true⟩] beside

theorem witness_PositionDeferred : deferred.lapseDeferred 5 = true ∧ deferred.queuedOn 5 = some 0
    ∧ (deferred.recordOn 0 5).map Carrier.state = some .granted ∧ deferred.grantOf 5 = some 0
    ∧ (deferred.move 0).isSome = true ∧ committed deferred.cfg 2 900 (min 400 100) = false := by decide
theorem witness_PositionSpares : DesignationSpares deferred 0 5 :=
  ⟨queueLawOf (by decide) (by decide), ofAll (o := deferred.jar.overdue) (by decide)⟩

theorem witness_Rescue : let s := queued [waiting] (inPart .running)
    s.head 0 = some waiting ∧ s.queuedOn 5 = some 0 ∧ s.grantOf 5 = none ∧ committed s.cfg 2 10 (min 400 400) = true
    ∧ s.held = false ∧ s.move 0 = none ∧ s.inbound 0 = true ∧ s.outbound 1 = true ∧ (s.path 0 1).permitted = true
    ∧ (∀ k ∈ cellSet 0 1, s.cell k = .free) ∧ s.wkp.state = .closed ∧ s.admits 1 = true := by decide +kernel
theorem witness_RescueLaw : QueueLaw (queued [waiting] (inPart .running)) := queueLawOf (by decide) (by decide)
theorem witness_Overrun : let s := queued [waiting] settling
    s.head 0 = some waiting ∧ s.queuedOn 5 = some 0 ∧ s.grantOf 5 = none ∧ s.held ≠ false := by decide
theorem witness_OverrunLaw : CrossingLaw (queued [waiting] settling) := lawOf (by decide +kernel) (by decide +kernel)
theorem witness_OverrunQueueLaw : QueueLaw (queued [waiting] settling) := queueLawOf (by decide) (by decide)

/-- RUNNING, not held, carrier 5 waiting for an arm whose segment end does not admit: committed, it overruns. -/
def overruns : State := { queued [waiting] (inPart .running) with segs := (Quad.fill openEnd).set 1 (.initial false) }

theorem witness_OverrunFirst : overruns.held = false ∧ overruns.admits 1 = false ∧ overruns.head 0 = some waiting
    ∧ committed overruns.cfg 2 10 (min 400 400) = true := by decide +kernel
theorem witness_OverrunGrantLaw : QueueLaw overruns ∧ GrantLaw overruns ∧ CrossingLaw overruns :=
  ⟨queueLawOf (by decide) (by decide), grantLawOf (by decide) (by decide) (by decide) (by decide) (by decide),
    lawOf (by decide +kernel) (by decide +kernel)⟩

/-- The same with the record updated: carrier 5 is at 10 cm with 400 cm/s. -/
def runsOn (s : State) : State := queued [{ waiting with distance := 10, speed := 400 }] s

theorem witness_Check : (runsOn overruns).head 0 = some { waiting with distance := 10, speed := 400 }
    ∧ Carrier.committed cfg { waiting with distance := 10, speed := 400 } = true ∧ (runsOn overruns).held = false
    ∧ (runsOn overruns).rescuable { waiting with distance := 10, speed := 400 } = false
    ∧ (runsOn (inPart .running)).rescuable { waiting with distance := 10, speed := 400 } = true
    ∧ waiting.committed cfg = false := by decide +kernel
theorem witness_CheckLaws : QueueLaw (runsOn overruns) ∧ GrantLaw (runsOn overruns) ∧ CrossingLaw (runsOn overruns) :=
  ⟨queueLawOf (by decide) (by decide), grantLawOf (by decide) (by decide) (by decide) (by decide) (by decide),
    lawOf (by decide +kernel) (by decide +kernel)⟩

theorem witness_Unqueued : let s := unmatchedIn [{ boxed with id := 6 }] (inPart .running)
    inBox s 6 ∧ (∀ i, ∀ c ∈ s.queue i, c.id ≠ 6) ∧ s.inUnmatched 7 = false ∧ s.inMovement 7 = false := by
  refine ⟨.inr ⟨by decide, _, List.mem_singleton.2 rfl, rfl⟩, ?_⟩
  decide
theorem witness_UnqueuedNot : ¬ inBox (inPart .running) 7 := by
  have h : ∀ i, (inPart .running).move i = none := by decide
  rintro (⟨i, m, hm, _⟩ | ⟨_, u, hu, _⟩)
  · rw [h i] at hm; cases hm
  · cases hu

theorem witness_Withdraw : (queued [waiting] (inPart .running)).queuedOn 5 = some 0
    ∧ (queued [waiting] (inPart .running)).grantOf 5 = none
    ∧ granted.queuedOn 5 = some 0 ∧ granted.grantOf 5 = some 0 ∧ granted.jar.overdue = none ∧ (5 : CarrierId) ≠ 0
    ∧ 4095 < (4096 : Half).toNat ∧ granted.queuedOn (0xFFF : CarrierId) = none := by decide

theorem witness_Clearance : (queued [other 4, waiting] (inPart .running)).queuedOn 5 = some 0
    ∧ (queued [other 4, waiting] (inPart .running)).queue 0 = [other 4] ++ waiting :: []
    ∧ (moving [crossingEntry5] (inPart .running)).crossingOf 5 = some 0
    ∧ [crossingEntry5].find? (fun e => e.id == 5 && e.isCrossing) = some crossingEntry5
    ∧ (inPart .running).crossingOf 5 = none ∧ (∀ j, ∀ c ∈ (inPart .running).queue j, c.id ≠ 5) := by decide

/-- A release of the reservation of carrier 5 at arm 1, which fails the consistency test on the view of 6 that stands, and
does not on a view of 5; and one where none stands. -/
theorem witness_Released : let s (occ : Nat) : State := { granted with segs := (Quad.fill openEnd).set 1 { openEnd with r := 1, occ := occ } }
    ((s 6).seg 1).r ≠ 0 ∧ (s 6).viewFails 1 6 0 ∧ ¬ (s 5).viewFails 1 5 0 ∧ (granted.seg 1).r = 0 := by
  refine ⟨by decide, .inr (by decide), ?_, by decide⟩
  rintro (h | h)
  · exact absurd h (by decide)
  · exact absurd h (by decide)

/-- The part with items on the send list of arm 0. -/
def sending (l : List SendItem) (s : State) : State := { s with aqu := { s.aqu with sends := s.aqu.sends.set 0 l } }

theorem witness_SendItems : (sending [.refusal 5 .unknown] granted).aqu.sends.get 0 = [.refusal 5 .unknown]
    ∧ (sending [.clearance 5] granted).aqu.sends.get 0 = [.clearance 5] ∧ granted.aqu.sends.get 0 = [] := by decide

theorem witness_Mute : (queued [waiting] (inPart .running)).recordOn 0 5 = some waiting ∧ waiting.silent = false
    ∧ ((queued [{ waiting with silent := true }] (inPart .running)).recordOn 0 5).map Carrier.silent = some true := by
  decide

theorem witness_Grant : let s := queued [waiting] (inPart .running)
    s.grantExecutable waiting = true ∧ s.recordOn 0 5 = some waiting ∧ s.jar.overdue = none
    ∧ settling.grantExecutable waiting = false := by decide +kernel
theorem witness_FollowOn : let s := moving [⟨4, 2, .crossing (.running 0) false⟩] (queued [waiting] (inPart .running))
    let m : Movement := ⟨1, [⟨4, 2, .crossing (.running 0) false⟩], 0, false⟩
    s.move 0 = some m ∧ s.followOnExecutable waiting m = true ∧ settling.followOnExecutable waiting m = false := by
  decide +kernel

theorem witness_FollowOnAllowed : let s := moving [⟨4, 2, .crossing (.running 0) false⟩] (queued [waiting] (inPart .running))
    let m : Movement := ⟨1, [⟨4, 2, .crossing (.running 0) false⟩], 0, false⟩
    m.followOns < s.cfg.platoon ∧ m.carriers.length < 1 + s.cfg.platoon ∧ s.inbound 0 = true ∧ s.outbound 1 = true
    ∧ s.jar.overdue = none ∧ s.wkp.state = .closed ∧ s.admits 1 = true ∧ s.part = .running ∧ s.held = false
    ∧ (settling.move 0 = none) := by decide +kernel
theorem witness_GrantDesignated : (designating2 (inPart .running)).grantExecutable designated2 = true
    ∧ (designating2 (inPart .running)).recordOn 2 6 = some designated2
    ∧ (designating2 (inPart .running)).jar.overdue = some ⟨6, 2, 3⟩ := by decide +kernel
theorem witness_GrantSpares : DesignationSpares (designating2 (queued [waiting] (inPart .running))) 0 5 :=
  ⟨queueLawOf (by decide) (by decide), ofAll (o := (designating2 (queued [waiting] (inPart .running))).jar.overdue) (by decide)⟩

/-- RUNNING, carrier 5 at the skip limit. -/
def skippedOver : State := queued [{ waiting with skip := cfg.skipMax }] (inPart .running)

theorem witness_SkipCounts : (∀ i, ((skippedOver.queue i).map Carrier.id).Nodup) ∧ skippedOver.jar.overdue = none
    ∧ (skippedOver.jar.armOrder.filterMap skippedOver.head).find?
        (fun h => h.skip == skippedOver.cfg.skipMax && skippedOver.waitsOnCrossing h)
      = some { waiting with skip := cfg.skipMax }
    ∧ ((inPart .running).jar.armOrder.filterMap (inPart .running).head) = [] := by decide +kernel

theorem witness_DesignationEnds : beside.jar.overdue = some ⟨6, 2, 3⟩ ∧ beside.head 2 = some designated2
    ∧ designated2.silent = false ∧ (6 : CarrierId) ≠ 0 ∧ beside.present 2 = true
    ∧ committed beside.cfg 2 900 (min 400 100) = false ∧ beside.outbound 1 = true ∧ (beside.path 2 1).permitted = true
    ∧ (∀ c ∈ beside.queue 2, c.id ≠ 7) ∧ announceReason beside 2 7 1 400 = none ∧ (899 : Half).toNat < designated2.distance
    ∧ committed beside.cfg 2 899 (min 400 100) = false := by decide +kernel

theorem witness_Round : let s := { queued [waiting] (inPart .running) with jar := { Jar.initial with due := true } }
    s.granting = true ∧ (∀ i, s.move i = none) ∧ s.candidates.find? s.eligible = some waiting
    ∧ (queued [] s).candidates.find? (queued [] s).eligible = none := by decide +kernel

theorem witness_MatchedEntry : beside.present 0 = true ∧ (beside.xu.ent.get 0).level = false
    ∧ beside.move 0 = some ⟨1, [] ++ grantedEntry5 :: [], 0, false⟩ ∧ beside.granting = true
    ∧ (moving [grantedEntry5] (inPart .faulted)).granting = false
    ∧ (beside.head 0).map Carrier.id = some grantedEntry5.id := by decide
theorem witness_MatchedEntryLaw : QueueLaw beside ∧ ∀ o, beside.jar.overdue = some o → o.id ≠ grantedEntry5.id :=
  ⟨beside_queueLaw, ofAll (o := beside.jar.overdue) (by decide)⟩

/-- Own count X takes the view of an empty lane to −1, which fails the test, and a view of 1 to 0, which passes it. -/
theorem witness_EntryView : let s := inPart .running
    s.viewFails 0 ((s.seg 0).occ - 1) (s.seg 0).r ∧ ¬ s.viewFails 0 (((1 : Nat) : Int) - 1) (s.seg 0).r := by
  refine ⟨.inl (by decide), ?_⟩
  rintro (h | h)
  · exact absurd h (by decide)
  · exact absurd h (by decide)

theorem witness_UnmatchedEntry : (inPart .running).part.working = true ∧ (inPart .running).present 0 = true
    ∧ ((inPart .running).xu.ent.get 0).level = false ∧ (inPart .running).move 0 = none
    ∧ (inPart .running).heldForCarrier = false ∧ (inPart .listening).present 0 = true := by decide

/-- An entry on arm 2 that no grant matches: the designated head leaves. An entry on arm 1: the designation stands. -/
theorem witness_UnmatchedDesignated : (∀ m, beside.move 2 = some m → ∀ e ∈ m.carriers, e.status.isGranted = false)
    ∧ (∀ m, beside.move 1 = some m → ∀ e ∈ m.carriers, e.status.isGranted = false) ∧ beside.present 2 = true
    ∧ beside.present 1 = true ∧ beside.held = false ∧ CrossingLaw beside :=
  ⟨noMove (by decide), noMove (by decide), by decide, by decide, by decide, lawOf (by decide +kernel) (by decide +kernel)⟩

/-- The part with the exit detector of an arm active. -/
def leaving (j : Arm) (s : State) : State :=
  { s with xu := { s.xu with ext := s.xu.ext.set j active } }

theorem witness_ExitRelease : let s := leaving 1 (moving [crossingEntry5, grantedEntry5] (inPart .running))
    (s.xu.ext.get 1).level = true ∧ s.exitMove 1 = some 0
    ∧ s.move 0 = some ⟨1, [] ++ crossingEntry5 :: [grantedEntry5], 0, false⟩ ∧ crossingEntry5.isCrossing = true
    ∧ (leaving 3 (unmatchedIn [boxed] (inPart .running))).exitMove 3 = none ∧ boxed.exit = none
    ∧ (leaving 3 (inPart .running)).xu.unmatched = [] := by decide +kernel

/-- The part with its walkway CLOSING. -/
def closing (s : State) : State := { s with wkp := { s.wkp with state := .closing, clearance := .running 0, latchedW := 5 } }

/-- No movement record but that of one arm. -/
theorem walkOpensOf {s : State} {l : List Unmatched} {ended : Option Arm} (h : s.wkp.state = .closing ∧ s.granting = true ∧ l = [])
    (h' : ∀ k, some k ≠ ended → s.move k = none) : s.walkOpens l ended :=
  ⟨h.1, h.2.1, h.2.2, fun k m hk hm => by rw [h' k hk] at hm; cases hm⟩

/-- The OPEN test passes at the end of the last record that uses the walkway's arm, at the last departure from the unmatched
list and at CONFIRM CLEAR; it fails with another such record or entry. -/
theorem witness_WalkOpens : let s := closing (leaving 1 (moving [crossingEntry5] (inPart .running)))
    s.walkOpens s.xu.unmatched (some 0) ∧ ¬ s.walkOpens [] none
    ∧ (closing (leaving 3 (unmatchedIn [boxed] (inPart .running)))).walkOpens [] none
    ∧ ¬ (closing (unmatchedIn [boxed, boxed] (inPart .running))).walkOpens [boxed] none
    ∧ ([] ++ [] : List Entry) = [] := by
  refine ⟨walkOpensOf (by decide +kernel) (by decide +kernel), fun h => ?_,
    walkOpensOf (by decide +kernel) (by decide +kernel), fun h => absurd h.2.2.1 (by decide), rfl⟩
  have := (h.2.2.2 0 ⟨1, [crossingEntry5], 0, false⟩ (by decide) (by decide)).2
  exact absurd this (by decide)

theorem witness_Box : (inPart .running).cfg.boxFitted = true ∧ (inPart .running).xu.box.level = false
    ∧ (∀ k, (inPart .running).cell k = .free) ∧ granted.cell 0 ≠ .free ∧ (inPart .settling).part.working = false := by
  decide
theorem witness_BoxRelease : let s : State := { inPart .running with xu := { (inPart .running).xu with box := active } }
    s.xu.box.level = true ∧ s.cfg.boxFitted = true := by decide
theorem witness_Button : let s := inPart .running
    s.wkp.button.level = false ∧ s.walkWorking = true ∧ s.cfg.walkMode = .onDemand ∧ s.wkp.state = .closed
    ∧ s.wkp.request = false ∧ s.wkp.interval ≠ .expired ∧ s.granting = true
    ∧ ({ s.wkp with interval := .expired } : Wkp).interval = .expired
    ∧ ({ s.wkp with request := true } : Wkp).request ≠ false ∧ (leaving 3 s).present 0 = true
    ∧ (inPart .faulted).part ≠ .recovering ∧ (inPart .faulted).part ≠ .running
    ∧ ({ s.wkp with button := ⟨true, true, .stopped⟩ } : Wkp).button.level = true := by decide
theorem witness_Debounce : (inPart .running).runsFilter (.ent 0) = true ∧ (inPart .settling).runsFilter (.ent 0) = false
    ∧ (inPartOf cfgSpurs .running).runsFilter (.ext 3) = false ∧ turned.filterTurns (.ent 0) = true
    ∧ turned.pending = [] ∧ (∀ c ∈ turned.owedNow, c = none) ∧ sensed.filterTurns (.ent 0) = false := by decide +kernel

theorem witness_DetectorFault : ((leaving 3 beside).xu.ext.get 3).stuckTimer.isRunning = true
    ∧ ((inPart .running).xu.ent.get 0).stuckTimer.isRunning = false
    ∧ ((inPart .running).xu.ext.get 0).stuckTimer.isRunning = false
    ∧ (inPart .running).xu.box.stuckTimer.isRunning = false ∧ active.stuckTimer.isRunning = true := by decide
theorem witness_ClosingEnds : ClosingEndsDesignation (leaving 3 beside) 3 ∧ ClosingEndsDesignation beside 2
    ∧ ¬ ClosingEndsDesignation beside 0 := by
  refine ⟨⟨by decide, _, rfl, .inr rfl⟩, ⟨by decide, _, rfl, .inl rfl⟩, ?_⟩
  rintro ⟨_, o, ho, h⟩
  cases ho
  exact absurd h (by decide)

theorem witness_StartWindow : granted.grantOf 5 = some 0
    ∧ (granted.move 0).all (fun m => m.carriers.any (Entry.inStartWindow 5)) = true ∧ granted.queuedOn 5 = some 0
    ∧ (granted.recordOn 0 5).all (fun c => c.committed granted.cfg) = false
    ∧ (queued [{ waiting with state := .granted, distance := 0 }] granted).queue 0 ≠ []
    ∧ ({ waiting with state := .granted, distance := 0 } : Carrier).committed cfg = true
    ∧ (moving [crossingEntry5] (inPart .running)).crossingOf 5 = some 0
    ∧ [crossingEntry5].any (Entry.inClearTime 5) = true := by decide +kernel

/-- The part with the segment end of an arm. -/
def withEnd (i : Arm) (g : SegEnd) (s : State) : State := { s with segs := s.segs.set i g }

/-- A record of class 2 on arm 0 for exit 0 is no movement; this one demands arm 0 from arm 1. -/
def fromArm1 : State :=
  { inPart .running with aqu := { (inPart .running).aqu with
      queues := (inPart .running).aqu.queues.set 1 [{ waiting with arrival := 1, exit := 0 }] } }

theorem witness_HoldTimer : let s := withEnd 0 { openEnd with hold := .running 0, occ := 1, demN := 1 } fromArm1
    (s.seg 0).hold.isRunning = true ∧ s.steers 0 = true ∧ (s.seg 0).dir = .outbound ∧ 0 < s.demand 0
    ∧ 0 < s.farDemand 0 ∧ ¬ ((s.seg 0).occ = 0 ∧ (s.seg 0).r = 0) ∧ s.steers 2 = false := by decide
theorem witness_QuietProof : let s := withEnd 1 { openEnd with unsure := true, quiet := .running 0 } (inPart .running)
    (s.seg 1).quiet.isRunning = true ∧ s.provesQuiet 1 = true ∧ (s.seg 1).occ = 0 ∧ s.role 1 = .spur ∧ s.demand 1 = 0
    ∧ s.farDemand 1 = 0 ∧ s.fixedDirection 1 = none
    ∧ ¬ (({ openEnd with unsure := true, quiet := .running 0, occ := 1 } : SegEnd).occ = 0) := by decide

theorem witness_Evaluation : (inPart .running).steers 0 = true ∧ (inPart .running).steers 2 = false
    ∧ ((inPart .running).seg 0).nextDirection ((inPart .running).demand 0) ((inPart .running).farDemand 0) = some .free
    ∧ ((withEnd 0 { openEnd with occ := 1 } (inPart .running)).seg 0).nextDirection 0 0 = none
    ∧ (inPart .running).limitOpen 0 { openEnd with dir := .inbound } = true
    ∧ (inPart .running).limitOpen 0 openEnd = false := by decide
theorem witness_DirectionRows : ∀ d, SegEnd.dir { openEnd with dir := d } = d := fun _ => rfl
theorem witness_Admission : (inPart .running).role 0 = .lock ∧ (inPart .running).role 1 = .spur
    ∧ (inPart .running).role 2 = .far ∧ (∀ i, (inPart .running).present i = true) := by decide

theorem witness_ConfirmClearArm : (inPart .running).role 2 = .far ∧ (granted.move 0).map Movement.exit = some 1
    ∧ (∀ k, (inPart .running).move k = none) ∧ (3 : Byte).toNat = (3 : Arm).val ∧ 4 ≤ (4 : Byte).toNat
    ∧ (4 : Byte) ≠ 0x0F ∧ (inPartOf cfgSpurs .running).present 3 = false ∧ (inPart .running).fixedDirection 0 = none
    ∧ (inPart .running).demand 0 = 0 ∧ (inPart .running).farDemand 0 = 0 := by decide

theorem witness_Receiver : (inPart .listening).part.working = true ∧ unknownFrame [0x5A, 3, 1, 2, 4] = false
    ∧ unknownFrame [0x5A, 3, 1, 2, 5] = true ∧ frameLength [0x5B, 3, 1, 0, 0] = some 5 := by decide
theorem witness_LineBit : (inPart .listening).fli.rx.bits = none ∧ (inPart .settling).part.working = false
    ∧ (inPart .listening).fli.rx.rows = 0 ∧ (lineAfter 2).fli.rx.rows = 1 := by decide +kernel
theorem witness_BuiltFrames : ({ Receiver.initial with state := .ready } : Receiver).state = .ready
    ∧ ((inPart .running).arm 0).neighbour ≠ 0 ∧ (inPart .running).cfg.nodeAddress < ((inPart .running).arm 0).neighbour
    ∧ ((inPart .running).arm 2).neighbour ≠ 0 ∧ ¬ (inPart .running).cfg.nodeAddress < ((inPart .running).arm 2).neighbour
    ∧ (inPart .recovering).part = .recovering ∧ (inPart .faulted).part = .faulted
    ∧ (heldBy ⟨true, false, false, .stopped⟩).statusByte = 6 := by decide

/-- The part with its transmitter. -/
def withTx (f : Transmitter → Transmitter) (s : State) : State := { s with fli := { s.fli with tx := f s.fli.tx } }

theorem witness_Transmitter :
    let waits := withTx (fun t => { t with state := .waiting, pending := some .report, attempts := 1 }) (inPart .running)
    let quiet : State := { waits with fli := { waits.fli with rx := { Receiver.initial with rest := 12 } } }
    let sends := withTx (fun t => { t with state := .sending, attempts := 14 }) waits
    let asks := withTx (fun t => { t with pending := some .request, attempts := 15 }) sends
    quiet.lineIdle = true ∧ quiet.fli.tx.pending = some .report ∧ quiet.fli.tx.state = .waiting ∧ waits.lineIdle = false
    ∧ sends.fli.tx.state = .sending ∧ sends.fli.tx.attempts < 15 ∧ ¬ (sends.fli.tx.pending = some .request)
    ∧ 15 ≤ asks.fli.tx.attempts ∧ asks.fli.tx.pending = some .request ∧ asks.part ≠ .listening
    ∧ (withTx (fun t => { t with state := .backoff, backoff := .running 0 }) waits).fli.tx.backoff.isRunning = true := by
  decide
/-- An attempt leaves the count of rest as it stands; a dominant bit that is read back turns the line busy, and a recessive
one, as a driver fault gives, does not (R114, R121). -/
theorem test_attemptRest :
    let s := after .attemptStart { withTx (fun t => { t with state := .waiting, pending := some .report, attempts := 1 })
      (inPart .running) with fli := { (withTx (fun t => { t with state := .waiting, pending := some .report, attempts := 1 })
        (inPart .running)).fli with rx := { Receiver.initial with rest := 12 } } }
    s.fli.tx.state = .sending ∧ s.fli.rx.rest = 12 ∧ (s.lineBit true).lineIdle = true ∧ (s.lineBit false).lineIdle = false := by
  decide +kernel
theorem witness_TransmitterTimers :
    let s := withTx (fun t => { t with periodic := .running 0, spacing := .running 0, lineFault := .running 0 })
      (inPart .running)
    s.fli.tx.periodic.isRunning = true ∧ s.fli.tx.state = .idle ∧ s.fli.tx.spacing.isRunning = true
    ∧ s.fli.tx.lineFault.isRunning = true ∧ s.fli.tx.faultRaised = false
    ∧ (withTx (fun t => { t with state := .waiting, pending := some .request }) s).fli.tx.pending = some .request
    ∧ (withTx (fun t => { t with state := .backoff, pending := some .report }) s).fli.tx.pending = some .report := by decide
theorem witness_ReportFallsDue : (withTx (fun t => { t with changeWaiting := true }) (inPart .running)).reportFallsDue
    ∧ ¬ (inPart .running).fli.tx.changeWaiting = true := by
  refine ⟨?_, by decide⟩
  unfold State.reportFallsDue
  decide

/-- The entry of a neighbour for node 9, of a two-way segment. -/
def entryFor9 : RawEntry := ⟨9, 1, 1, 2, 2, 0, 0, 0, 5, 5, 7, 0⟩

theorem witness_NeighbourReport : let s := inPart .running
    s.armOfNeighbour 3 = some 2 ∧ (3 : Byte).toNat ≠ s.cfg.nodeAddress ∧ s.armOfNeighbour 4 = none
    ∧ reportAcceptable 1 2 (FloorReport.entryFor s.cfg.nodeAddress ⟨3, 1, 2, [entryFor9]⟩) = true
    ∧ FloorReport.entryFor s.cfg.nodeAddress ⟨3, 1, 2, [entryFor9]⟩ = some entryFor9
    ∧ entryKind entryFor9 = some (s.arm 2).kind
    ∧ reportAcceptable 1 2 (FloorReport.entryFor s.cfg.nodeAddress ⟨3, 1, 2, []⟩) = true
    ∧ FloorReport.entryFor s.cfg.nodeAddress ⟨3, 1, 2, []⟩ = none ∧ (s.nbr 2).epoch = none := by decide
/-- The report that makes the last record LIVE in LISTENING, and one that does not. -/
theorem witness_LastNeighbour :
    let s := { inPart .listening with nbrs := (Quad.fill { Neighbour.initial with state := .live }).set 2 .initial }
    s.part = .listening ∧ (∀ j, j ≠ 2 → s.hasNeighbour j = true → (s.nbr j).state = .live)
    ∧ (inPart .listening).hasNeighbour 0 = true ∧ ((inPart .listening).nbr 0).state ≠ .live
    ∧ s.fli.tx.state ≠ .sending := by decide
theorem witness_NeighbourDiscard : (3 : Byte).toNat % 4 = 3 ∧ (4 : Byte).toNat % 4 = 0 ∧ 4 < (5 : Byte).toNat
    ∧ FloorReport.entryFor (inPart .running).cfg.nodeAddress ⟨3, 1, 2, [{ entryFor9 with dir := 5 }]⟩
      = some { entryFor9 with dir := 5 } := by decide
theorem witness_NeighbourRestart : let s := { inPart .running with
      nbrs := .fill { Neighbour.initial with epoch := some 1, state := .live } }
    s.armOfNeighbour 3 = some 2 ∧ (s.nbr 2).epoch ≠ none ∧ s.hasNeighbour 2 = true ∧ (s.nbr 2).state = .live
    ∧ ((inPart .running).nbr 2).state = .awaited ∧ ((inPart .running).nbr 2).late = false := by decide

/-- The part whose neighbours have been heard under epoch 1, with the base of the next entry. -/
def heardUnder (b : BaseState) (s : State) : State :=
  { s with nbrs := .fill { Neighbour.initial with epoch := some 1, state := .live, base := b } }

theorem witness_EntryAtSegmentEnd : let s := heardUnder .current (inPart .running)
    let lockReport : FloorReport := ⟨14, 1, 2, [{ entryFor9 with codes := 2 }]⟩
    (14 : Byte).toNat ≠ s.cfg.nodeAddress ∧ s.armOfNeighbour 14 = some 0 ∧ s.role 0 = .lock ∧ s.role 2 = .far
    ∧ reportAcceptable 1 2 (some entryFor9) = true
    ∧ FloorReport.entryFor s.cfg.nodeAddress lockReport = some { entryFor9 with codes := 2 }
    ∧ reportAcceptable 1 2 (some { entryFor9 with codes := 2 }) = true
    ∧ (s.nbr 0).base = .current ∧ (s.nbr 0).epoch = some 1
    ∧ ((heardUnder .none (inPart .running)).nbr 0).base = .none
    ∧ ((heardUnder .newEpoch (inPart .running)).nbr 0).base ≠ .none
    ∧ ((entryFor9.e - (s.seg 0).eN).toNat ≤ 30 ∧ (entryFor9.x - (s.seg 0).xN).toNat ≤ 30)
    ∧ ¬ (((31 : Byte) - (s.seg 0).eN).toNat ≤ 30)
    ∧ s.limitOpen 0 { openEnd with dir := .inbound } = true ∧ s.limitOpen 0 openEnd = false := by decide
theorem witness_EntryBounds : Bounded (heardUnder .current (inPart .running)) := by
  refine ⟨?_, ?_, ?_, ?_, ?_, ?_⟩ <;> decide

/-- The part with its walkway. -/
def withWalk (w : Wkp) (s : State) : State := { s with wkp := w }

theorem witness_Walkway :
    let w : Wkp := { Wkp.initial cfg with interval := .running 0, stagedW := 120 }
    let s := withWalk w (inPartOf { cfg with walkMode := .cyclic } .running)
    s.cfg.walkMode = .cyclic ∧ s.wkp.interval.isRunning = true ∧ 0 < s.wkp.stagedW ∧ s.walkwayClear = true
    ∧ (unmatchedIn [boxed] s).walkwayClear = false ∧ s.granting = true ∧ s.walkWorking = true
    ∧ (Wkp.initial cfg).stagedW = 0 ∧ (inPart .running).cfg.walkMode = .onDemand
    ∧ ({ w with request := true } : Wkp).request = true ∧ (withWalk w (inPart .running)).walkWorking = true
    ∧ ({ w with state := .closing, clearance := .running 0 } : Wkp).clearance.isRunning = true
    ∧ ({ w with state := .opened, opening := .running 0 } : Wkp).opening.isRunning = true := by decide

theorem witness_Hold : (heldBy ⟨true, false, true, .running 0⟩).hld.settle.isRunning = true
    ∧ (heldBy ⟨true, false, true, .running 0⟩).heldForCarrier = true ∧ (inPart .running).held = false
    ∧ (heldBy ⟨false, false, true, .stopped⟩).heldForCarrier = false
    ∧ (heldBy ⟨false, false, true, .stopped⟩).hld.operator = true
    ∧ (heldBy ⟨true, false, false, .running 0⟩).hld.operator = false ∧ (inPart .listening).part.working = true
    ∧ beside.held = false ∧ beside.part ≠ .faulted ∧ beside.cell 2 = .reserved 6
    ∧ ({ inPart .recovering with hld := ⟨false, false, true, .stopped⟩ }).hld.operator = true := by decide
theorem witness_StopLaws : QueueLaw beside ∧ GrantLaw beside := ⟨beside_queueLaw, beside_grantLaw⟩

theorem witness_Reads : (3 : Byte).toNat = (3 : Arm).val ∧ 4 ≤ (4 : Byte).toNat
    ∧ (inPartOf cfgSpurs .running).present 3 = false ∧ (inPart .loading).scu.rstHeld = false
    ∧ ((inPart .running).arm 1).neighbour = 0 ∧ ((inPart .running).arm 0).neighbour ≠ 0 ∧ (inPart .running).present 1 = true
    ∧ (inPart .running).present 0 = true := by decide
theorem witness_Buffer : (16 : Nat) % 8 = 0 ∧ (17 : Nat) % 8 ≠ 0
    ∧ (inPart .running).mtp.buffer = .empty ∧ (1 : Byte) ≠ 0 ∧ (inPart .running).mtp.transaction = none
    ∧ (inPart .running).selectPort.mtp.transaction = some ⟨[], .none⟩ ∧ (inPart .running).scu.rstHeld = false
    ∧ (inPart .running).mtp.carried = [] ∧ (inPart .running).selectPort.deselectPort.mtp.carried = [.none] := by
  decide +kernel
theorem witness_EventSet : (0x03FFFF : BitVec 24).toNat < 2 ^ 18 ∧ 2 ^ 18 ≤ (0x040000 : BitVec 24).toNat := by decide
theorem witness_Acceptance : actingCommand (.closeArm 3) = true ∧ (inPart .settling).part = .settling
    ∧ (List.replicate 184 (0 : Byte)).length = 184 ∧ (inPart .unconfigured).scu.writing = none :=
  ⟨by decide, by decide, List.length_replicate, by decide⟩
/-- A byte that is no command's code begins no good frame. -/
theorem witness_BadFrame : ∀ (code : Byte) (a : List Byte) (fill : Nat), code ≠ 0x99 →
    ([0x99] : List Byte) ≠ Layout.withCrc16 (code :: a) ++ List.replicate fill 0 := by
  intro code a fill h e
  exact h (by simpa [Layout.withCrc16] using (congrArg List.head? e).symm)
theorem witness_GoodFrame : ([] : List Byte).length = 0 ∧ (List.replicate 184 (0 : Byte)).length = 184 ∧ 24 % 8 = 0
    ∧ 9 % 8 ≠ 0 ∧ (0x99 : Byte) ≠ 0 ∧ transactionCommand 24 (Layout.withCrc16 [0x12]) = .stop :=
  ⟨rfl, List.length_replicate, rfl, by decide, by decide, by decide +kernel⟩
theorem witness_CloseOpen : (inPart .running).closed 0 = false ∧ closed0.closed 0 = true ∧ closed0.present 0 = true
    ∧ closed0.jar.overdue = none ∧ (closed0.closures.get 0).detector = false
    ∧ (leaving 0 closed0).detectorActive 0 = true ∧ (inPartOf cfgSpurs .running).present 3 = false := by decide
theorem witness_SetWalkway : 10 ≤ (10 : Half).toNat ∧ (600 : Half).toNat ≤ 600 ∧ (120 : Byte).toNat ≤ 120
    ∧ (9 : Half).toNat < 10 ∧ 600 < (601 : Half).toNat ∧ 120 < (121 : Byte).toNat := by decide

theorem witness_KeepsLaw : CrossingLaw granted ∧ (0 : Arm) ≠ 1 ∧ CrossingLaw { granted with pending := [.stop] } :=
  ⟨witness_FaultedLaw, by decide, lawOf (by decide +kernel) (by decide +kernel)⟩
theorem witness_KeepsBounds : Bounded granted := by
  refine ⟨?_, ?_, ?_, ?_, ?_, ?_⟩ <;> decide
theorem witness_KeepsQueueLaw : QueueLaw beside ∧ beside.jar.overdue ≠ none := ⟨beside_queueLaw, by decide⟩
theorem witness_KeepsGrantLaw : let s := { beside with pending := [.arbitrationRound] }
    QueueLaw s ∧ GrantLaw s ∧ (∃ t, step s = .next t) :=
  ⟨beside_queueLaw, beside_grantLaw, _, rfl⟩
theorem witness_NoGrant : settling.granting = false ∧ ∃ t, exec .stop settling = .next t :=
  ⟨by decide, _, rfl⟩

end Sys2Proof.Tests
end

/-! ## Integer square root and commitment test (R48, R49)

The search by bits finds `Nat.sqrt`; exactness and the comparison with a speed are then the library's. -/

namespace Sys2Proof.Machine

/-- The search keeps the root of `n` in the interval from `r` to `r + 2 ^ k`, of which each bit tried takes one half. -/
theorem isqrtBits_eq_sqrt (n : Nat) : ∀ k r : Nat, r * r ≤ n → n < (r + 2 ^ k) * (r + 2 ^ k) →
    isqrtBits n k r = n.sqrt := by
  intro k
  induction k with
  | zero =>
    intro r lower upper
    exact Nat.eq_sqrt.mpr ⟨lower, upper⟩
  | succ k ih =>
    intro r lower upper
    have halves : r + 2 ^ (k + 1) = r + 2 ^ k + 2 ^ k := by omega
    rw [halves] at upper
    by_cases fits : (r + 2 ^ k) * (r + 2 ^ k) ≤ n
    · simpa only [isqrtBits, if_pos fits] using ih (r + 2 ^ k) fits upper
    · simpa only [isqrtBits, if_neg fits] using ih r lower (Nat.lt_of_not_le fits)

/-- Half the bits of `n`, rounded up, are enough for its root: as many as `isqrt` tries. -/
theorem lt_two_pow_half_log2_mul_self (n : Nat) : n < 2 ^ (n.log2 / 2 + 1) * 2 ^ (n.log2 / 2 + 1) :=
  calc n < 2 ^ (n.log2 + 1) := Nat.lt_log2_self
    _ ≤ 2 ^ (n.log2 / 2 + 1 + (n.log2 / 2 + 1)) := Nat.pow_le_pow_right (by decide) (by omega)
    _ = 2 ^ (n.log2 / 2 + 1) * 2 ^ (n.log2 / 2 + 1) := Nat.pow_add ..

theorem isqrt_eq_sqrt (n : Nat) : isqrt n = n.sqrt :=
  isqrtBits_eq_sqrt n _ 0 (Nat.zero_le n) (by simpa only [Nat.zero_add] using lt_two_pow_half_log2_mul_self n)

theorem isqrt_lt_iff {n v : Nat} : isqrt n < v ↔ n < v * v := by
  rw [isqrt_eq_sqrt, Nat.sqrt_lt]

/-- R49's comparison of `v` with the bound, without the root. -/
theorem committed_iff (c : JunctionConfig) (cls : Fin 4) (d v : Nat) :
    committed c cls d v = true ↔ 2 * (c.classes.get cls).decel * (d - c.margin - latency c v) < v * v := by
  rw [committed, decide_eq_true_iff, isqrt_lt_iff]

/-- Settles O24: exactness by `isqrt_eq_sqrt`, the commitment test by `committed_iff`. -/
theorem isqrtAndCommitmentTest : Obligations.IsqrtAndCommitmentTest := by
  refine ⟨fun n => ?_, committed_iff⟩
  rw [isqrt_eq_sqrt]
  exact ⟨Nat.sqrt_le n, Nat.lt_succ_sqrt n⟩

end Sys2Proof.Machine

/-! ## Arm order (R79)

The rule's two sentences, a lemma for each pair that S2 can point to; every row of its table is one of them. -/

namespace Sys2Proof.Machine

/-- The arms `low` and `high` of a pair, the one its switch points to first. -/
def pairOrder (low high : Arm) : Side → List Arm
  | .lower => [low, high]
  | .upper => [high, low]

theorem Jar.armOrder_of_arms01 {j : Jar} {x y : Side} (h2 : j.s2 = .arms01) (h3 : j.s3 = x) (h4 : j.s4 = y) :
    j.armOrder = pairOrder 0 1 x ++ pairOrder 2 3 y := by
  rw [Jar.armOrder, h2, h3, h4]
  rfl

theorem Jar.armOrder_of_arms23 {j : Jar} {x y : Side} (h2 : j.s2 = .arms23) (h3 : j.s3 = x) (h4 : j.s4 = y) :
    j.armOrder = pairOrder 2 3 y ++ pairOrder 0 1 x := by
  rw [Jar.armOrder, h2, h3, h4]
  rfl

/-- Settles O27: a restart leaves S2, S3 and S4 at the table's first row, and each row is the lemma of its pair. -/
theorem armOrderTable : Obligations.ArmOrderTable := by
  refine ⟨fun _ _ _ _ _ _ => Jar.armOrder_of_arms01 rfl rfl rfl, fun j => ⟨?_, ?_, ?_, ?_, ?_, ?_, ?_, ?_⟩⟩
  iterate 4 exact Jar.armOrder_of_arms01
  iterate 4 exact Jar.armOrder_of_arms23

end Sys2Proof.Machine

/-! ## What a command does, as a chain of acts

Each command is a chain of the named acts below, on the state as it stands there: `exec_acts`. The laws of the part, and the
frame of the movement records, are then kept act by act. -/

namespace Sys2Proof.Machine

/-- The reservations and the occupancy views of the segment ends lie in their range (R90). -/
def ViewsInRange (s : State) : Prop := ∀ i, (s.seg i).r ≤ 15 ∧ (s.seg i).occ ≤ 15

/-- The staged and the latched times of the walkway lie in their ranges (R140). -/
def Wkp.timesInRange (w : Wkp) : Prop :=
  (10 ≤ w.stagedP ∧ w.stagedP ≤ 600 ∧ w.stagedW ≤ 120) ∧ (10 ≤ w.latchedP ∧ w.latchedP ≤ 600 ∧ w.latchedW ≤ 120)

/-- The part states in which a movement record can stand. -/
def PartState.moves (p : PartState) : Prop := p = .running ∨ p = .faulted

/-- From `s` to `t` no record, no designation, no movement record, no HELD cell and no waiting command changes; a part state with movement records
is not left for one without them; and no bound is passed. -/
structure Aside (s t : State) : Prop where
  queues : t.aqu.queues = s.aqu.queues
  held : SameHeld s t
  overdue : t.jar.overdue = s.jar.overdue
  pending : t.pending = s.pending
  part : s.part.moves → t.part.moves
  sends : (∀ i, (s.aqu.sends.get i).length ≤ 16) → ∀ i, (t.aqu.sends.get i).length ≤ 16
  unmatched : s.xu.unmatched.length ≤ 4 → t.xu.unmatched.length ≤ 4
  views : ViewsInRange s → ViewsInRange t
  walk : s.wkp.timesInRange → t.wkp.timesInRange

theorem Aside.refl (s : State) : Aside s s := ⟨rfl, .refl s, rfl, rfl, id, id, id, id, id⟩

theorem Aside.trans {s t u : State} (h : Aside s t) (h' : Aside t u) : Aside s u :=
  ⟨h'.queues.trans h.queues, h.held.trans h'.held, h'.overdue.trans h.overdue,
    h'.pending.trans h.pending, h'.part ∘ h.part, fun hs => h'.sends (h.sends hs), h'.unmatched ∘ h.unmatched, h'.views ∘ h.views, h'.walk ∘ h.walk⟩

/-- A change that leaves the approach queue unit, the crossing unit, the designation, the part state and the walkway alone. -/
theorem Aside.of_keeps {s t : State} (ha : t.aqu = s.aqu) (hx : t.xu = s.xu) (hj : t.jar.overdue = s.jar.overdue)
    (hp : t.scu.part = s.scu.part) (hw : t.wkp = s.wkp) (hv : ViewsInRange s → ViewsInRange t)
    (hpending : t.pending = s.pending := by simp) : Aside s t :=
  ⟨by rw [ha], .of_xu hx, hj, hpending, by rw [State.part, State.part, hp]; exact id, by rw [ha]; exact id, by rw [hx]; exact id,
    hv, by rw [hw]; exact id⟩

/-! ### Views and reservations in range -/

theorem ViewsInRange.of_segs {s t : State} (h : t.segs = s.segs) : ViewsInRange s → ViewsInRange t := fun hs i => by
  simpa only [State.seg, h] using hs i

theorem viewsInRange_modSeg {i : Arm} {f : SegEnd → SegEnd} {s : State}
    (hf : (s.seg i).r ≤ 15 → (s.seg i).occ ≤ 15 → (f (s.seg i)).r ≤ 15 ∧ (f (s.seg i)).occ ≤ 15) (hs : ViewsInRange s) :
    ViewsInRange (s.modSeg i f) := fun j => by
  by_cases e : i = j
  · subst e; simpa using hf (hs i).1 (hs i).2
  · simpa [e] using hs j

theorem viewsInRange_takeView {i : Arm} {v : Int} {s : State} (hs : ViewsInRange s) : ViewsInRange (s.takeView i v) :=
  fun j => by
  rw [takeView_seg]
  by_cases e : i = j
  · subst e; simpa using (hs i).1
  · simpa [e] using hs j

theorem viewsInRange_retestView {i : Arm} {s : State} (hs : ViewsInRange s) : ViewsInRange (s.retestView i) :=
  viewsInRange_takeView hs

theorem viewsInRange_evaluate {i : Arm} {s : State} (hs : ViewsInRange s) : ViewsInRange (s.evaluate i) := fun j => by
  simpa using hs j

theorem viewsInRange_noteDemand {old s : State} (hs : ViewsInRange s) : ViewsInRange (State.noteDemand old s) := fun j => by
  simpa using hs j

theorem viewsInRange_takeReservation {i : Arm} {s : State} (hs : ViewsInRange s) : ViewsInRange (s.takeReservation i) :=
  viewsInRange_retestView (viewsInRange_modSeg (fun _ ho => ⟨by simp, ho⟩) hs)

theorem viewsInRange_releaseReservation {i : Arm} {s : State} (hs : ViewsInRange s) :
    ViewsInRange (s.releaseReservation i) := by
  unfold State.releaseReservation
  refine viewsInRange_evaluate ?_
  split
  · exact hs
  · exact viewsInRange_retestView (viewsInRange_modSeg (fun hr ho => ⟨by dsimp only; omega, ho⟩) hs)

theorem viewsInRange_countE {i : Arm} {consume : Bool} {s : State} (hs : ViewsInRange s) :
    ViewsInRange (s.countE i consume) :=
  viewsInRange_evaluate (viewsInRange_takeView (viewsInRange_modSeg
    (fun hr ho => ⟨by dsimp only; split <;> omega, ho⟩) hs))

theorem viewsInRange_countX {i : Arm} {s : State} (hs : ViewsInRange s) : ViewsInRange (s.countX i) :=
  viewsInRange_evaluate (viewsInRange_takeView (viewsInRange_modSeg (fun hr ho => ⟨hr, ho⟩) hs))

theorem viewsInRange_storeHeard {i : Arm} {e : RawEntry} {s : State} (hs : ViewsInRange s) :
    ViewsInRange (s.storeHeard i e) := by
  have h1 : ViewsInRange (s.modSeg i (SegEnd.hear e)) := viewsInRange_modSeg (fun hr ho => ⟨hr, ho⟩) hs
  unfold State.storeHeard
  dsimp only
  split
  · exact h1
  · exact viewsInRange_retestView h1

theorem viewsInRange_raise {k : EventKind} {s : State} (hs : ViewsInRange s) : ViewsInRange (s.raise k) := hs

theorem viewsInRange_applyDeltas {i : Arm} {e : RawEntry} {s : State} (hs : ViewsInRange s) :
    ViewsInRange (s.applyDeltas i e) := by
  unfold State.applyDeltas
  dsimp only
  split
  · exact viewsInRange_takeView hs
  · exact viewsInRange_raise (viewsInRange_modSeg (fun hr ho => ⟨hr, ho⟩) hs)

theorem viewsInRange_takeEntryBase {i : Arm} {k : EntryKind} {ep : Byte} {e : RawEntry} {s : State} (hs : ViewsInRange s) :
    ViewsInRange (s.takeEntryBase i k ep e) := by
  have base : ∀ u, ViewsInRange u → ViewsInRange (u.modSeg i (SegEnd.takeBase ep)) := fun u hu =>
    viewsInRange_modSeg (fun hr ho => ⟨hr, ho⟩) hu
  cases k with
  | ordinary => exact viewsInRange_storeHeard (viewsInRange_applyDeltas hs)
  | first =>
    have h1 : ViewsInRange (s.storeHeard i e) := viewsInRange_storeHeard hs
    unfold State.takeEntryBase
    dsimp only
    split
    · refine base _ ?_
      repeat' split
      · exact h1
      · exact viewsInRange_takeView h1
      · exact h1
    · exact h1
    · exact h1
  | newEpoch =>
    have h1 : ViewsInRange ((s.modSeg i fun g => { g with unsure := true }).storeHeard i e) :=
      viewsInRange_storeHeard (viewsInRange_modSeg (fun hr ho => ⟨hr, ho⟩) hs)
    unfold State.takeEntryBase
    dsimp only
    split
    · exact base _ h1
    · exact h1
    · exact h1

theorem viewsInRange_follow {i : Arm} {e : RawEntry} {s : State} (hs : ViewsInRange s) : ViewsInRange (s.follow i e) := by
  unfold State.follow
  split
  · split
    · exact viewsInRange_takeView (viewsInRange_modSeg (fun hr ho => ⟨hr, ho⟩) hs)
    · exact hs
  · exact viewsInRange_modSeg (fun hr ho => ⟨hr, ho⟩) hs
  · exact hs
  · exact hs

theorem lower_keeps (g : SegEnd) : g.lower.r = g.r ∧ g.lower.occ = g.occ := by
  unfold SegEnd.lower
  split <;> exact ⟨rfl, rfl⟩

theorem viewsInRange_takeEntry {i : Arm} {k : EntryKind} {ep : Byte} {e : RawEntry} {s : State} (hs : ViewsInRange s) :
    ViewsInRange (s.takeEntry i k ep e) := by
  have h1 : ViewsInRange (s.takeEntryBase i k ep e) := viewsInRange_takeEntryBase hs
  have h2 : ViewsInRange ((s.takeEntryBase i k ep e).takeEntryRole i e) := by
    unfold State.takeEntryRole
    split
    · refine viewsInRange_evaluate ?_
      split
      · exact h1
      · exact viewsInRange_modSeg (fun hr ho => by rw [(lower_keeps _).1, (lower_keeps _).2]; exact ⟨hr, ho⟩) h1
    · exact viewsInRange_follow (viewsInRange_modSeg (fun hr ho => ⟨hr, ho⟩) h1)
    · exact h1
  unfold State.takeEntry State.clearIsolation
  split
  · exact h2
  · exact viewsInRange_evaluate (viewsInRange_modSeg (fun hr ho => ⟨hr, ho⟩) h2)

theorem viewsInRange_isolate {i : Arm} {s : State} (hs : ViewsInRange s) : ViewsInRange (s.isolate i) :=
  viewsInRange_modSeg (fun hr ho => ⟨hr, ho⟩) hs

theorem viewsInRange_proveQuiet {i : Arm} {s : State} (hs : ViewsInRange s) : ViewsInRange (s.proveQuiet i) := by
  unfold State.proveQuiet
  split
  · exact viewsInRange_evaluate (viewsInRange_modSeg (fun hr ho => ⟨hr, ho⟩) hs)
  · exact viewsInRange_modSeg (fun hr ho => ⟨hr, ho⟩) hs

theorem viewsInRange_confirmArm {i : Arm} {s : State} (hs : ViewsInRange s) : ViewsInRange (s.confirmArm i) := by
  have h1 : ViewsInRange (s.modSeg i fun g => SegEnd.rest (s.restDirection i) { g with occ := 0, r := 0 }) :=
    viewsInRange_modSeg (fun _ _ => ⟨by simp [SegEnd.rest], by simp [SegEnd.rest]⟩) hs
  have step : ∀ u, ViewsInRange u → ViewsInRange (u.evaluate i).scheduleChange := fun u hu => viewsInRange_evaluate hu
  unfold State.confirmArm
  dsimp only
  refine step _ ?_
  split
  · exact viewsInRange_modSeg (fun hr ho => ⟨hr, ho⟩) h1
  · exact h1

theorem viewsInRange_closeLimits {s : State} (hs : ViewsInRange s) : ViewsInRange s.closeLimits := fun i => by
  have : s.closeLimits.seg i
      = if s.limitOpen i (s.seg i) then { s.seg i with limit := (s.seg i).farCommitted } else s.seg i := by
    simp [State.closeLimits, State.seg]
  rw [this]
  split <;> exact hs i

theorem viewsInRange_finish {old s : State} (hs : ViewsInRange s) : ViewsInRange (State.finish old s) := fun i => by
  simpa using hs i

end Sys2Proof.Machine

namespace Sys2Proof.Machine

/-! ### The acts -/

/-- A change of a carrier record that keeps whether it is GRANTED, and a GRANTED one's exit. -/
def Carrier.Amends (c d : Carrier) : Prop :=
  (d.state = .granted ↔ c.state = .granted) ∧ (c.state = .granted → d.exit = c.exit)

/-- A change of a carrier record that leaves it without a grant. -/
def Carrier.Unseats (c d : Carrier) : Prop := d.id = c.id ∧ d.arrival = c.arrival ∧ d.state ≠ .granted

/-- One act. A grant is one only where `g` says that the part grants. -/
inductive Act (g : Bool) : State → State → Prop
  | aside {s t} (h : Aside s t) : Act g s t
  /-- The record of a carrier on an arm is amended. -/
  | amend {s} (i id f) (same : ∀ c : Carrier, (f c).id = c.id ∧ (f c).arrival = c.arrival)
      (h : ∀ c, s.recordOn i id = some c → c.Amends (f c)) : Act g s (s.onRecord i id f)
  /-- A new record joins a queue with a free place. -/
  | insert {s} (i c) (arrival : c.arrival = i) (waits : c.state ≠ .granted) (new : s.queuedOn c.id = none)
      (room : (s.queue i).length < s.queueCapacity i) : Act g s (s.onQueue i (insertRecord c))
  /-- The head of a queue leaves with an entry that no grant matches. -/
  | pass {s} (i) (h : s.part.moves → s.oldestGranted i = none) : Act g s (s.onQueue i List.tail)
  /-- The overdue designation ends. -/
  | endOverdue (s) : Act g s s.endOverdue
  /-- A grant is withdrawn, and the record loses it. -/
  | unseat {s} (i id f) (known : (s.recordOn i id).isSome) (h : ∀ c : Carrier, c.Unseats (f c)) :
      Act g s ((s.withdrawGrant id).onRecord i id f)
  /-- A record leaves its queue, with its grant. -/
  | remove {s} (i id) (known : s.queuedOn id = some i) : Act g s ((s.withdrawGrant id).removeRecord i id)
  /-- A head is granted a movement record of its own. -/
  | grant {s} (i c rescue) (grants : g = true) (head : s.head i = some c) (waits : c.state ≠ .granted)
      (away : c.exit ≠ c.arrival) : Act g s (s.executeGrant c rescue)
  /-- A head is granted a place in the movement record of its arm. -/
  | followOn {s} (i c) (grants : g = true) (head : s.head i = some c) (waits : c.state ≠ .granted) :
      Act g s (s.executeFollowOn c)
  /-- The oldest GRANTED entry of a movement record becomes CROSSING, and its record leaves the queue. -/
  | enter {s} (i m id cls) (oldest : s.oldestGranted i = some (m, id)) :
      Act g s ((s.setMove i (some { m with
        carriers := mapFirst (fun e => e.status.isGranted) (Entry.enter cls) m.carriers })).removeRecord i id)
  | exit (s j) : Act g s (s.exitRelease j)
  | holdGrants (s) : Act g s s.holdGrants
  | raiseSkip (s id i) : Act g s (State.raiseSkip id s i)
  /-- A WAITING head is designated overdue. -/
  | designate {s} (i c) (head : s.head i = some c) (waits : c.state = .waiting) : Act g s (s.designate c)
  /-- Entries of a carrier list change, each still GRANTED or still CROSSING for its carrier. -/
  | relist (s i f) (h : ∀ e : Entry, (f e).id = e.id ∧ (f e).status.isGranted = e.status.isGranted) :
      Act g s (s.mapEntries i f)
  | tick (s) : Act g s s.tick
  | restart (s cause osc store rst now) : Act g s (.fresh cause osc store rst now s.pending)

/-- A chain of acts. -/
abbrev Acts (g : Bool) : State → State → Prop := Relation.ReflTransGen (Act g)

theorem Acts.refl {g : Bool} (s : State) : Acts g s s := Relation.ReflTransGen.refl

theorem Acts.of_act {g : Bool} {s t : State} (h : Act g s t) : Acts g s t := .single h

theorem Acts.of_aside {g : Bool} {s t : State} (h : Aside s t) : Acts g s t := .single (.aside h)

theorem Acts.trans {g : Bool} {s t u : State} (h : Acts g s t) (h' : Acts g t u) : Acts g s u :=
  Relation.ReflTransGen.trans h h'

/-- A chain that ends with a change aside. -/
theorem Acts.aside {g : Bool} {s t u : State} (h : Acts g s t) (h' : Aside t u) : Acts g s u := h.tail (.aside h')

/-- A predicate that each act keeps is kept by a chain of acts. -/
theorem Acts.keeps {g : Bool} {I : State → Prop} (hI : ∀ s t, Act g s t → I s → I t) {s t : State} (h : Acts g s t)
    (hs : I s) : I t := by
  induction h with
  | refl => exact hs
  | tail _ hact ih => exact hI _ _ hact ih

theorem Acts.foldl {g : Bool} {α : Type} {f : State → α → State} (hf : ∀ s a, Acts g s (f s a)) (l : List α) (s : State) :
    Acts g s (l.foldl f s) := by
  induction l generalizing s with
  | nil => exact .refl s
  | cons a l ih => exact (hf s a).trans (ih _)

/-! ### Changes aside -/

theorem aside_raise (k : EventKind) (s : State) : Aside s (s.raise k) :=
  .of_keeps (by simp) (by simp) (by simp) (by simp) (by simp) (.of_segs (by simp))

theorem aside_trigger (s : State) : Aside s s.trigger :=
  .of_keeps (by simp) (by simp) (by simp) (by simp) (by simp) (.of_segs (by simp))

theorem aside_scheduleChange (s : State) : Aside s s.scheduleChange :=
  .of_keeps (by simp) (by simp) (by simp) (by simp) (by simp) (.of_segs (by simp))

theorem aside_modTx (f : Transmitter → Transmitter) (s : State) : Aside s (s.modTx f) :=
  .of_keeps (by simp) (by simp) (by simp) (by simp) (by simp) (.of_segs (by simp))

theorem aside_modRx (f : Receiver → Receiver) (s : State) : Aside s (s.modRx f) :=
  .of_keeps (by simp) (by simp) (by simp) (by simp) (by simp) (.of_segs (by simp))

theorem aside_modMtp (f : Mtp → Mtp) (s : State) : Aside s (s.modMtp f) :=
  .of_keeps (by simp) (by simp) (by simp) (by simp) (by simp) (.of_segs (by simp))

theorem aside_modHld (f : Hld → Hld) (s : State) : Aside s (s.modHld f) :=
  .of_keeps (by simp) (by simp) (by simp) (by simp) (by simp) (.of_segs (by simp))

theorem aside_modNbr (i : Arm) (f : Neighbour → Neighbour) (s : State) : Aside s (s.modNbr i f) :=
  .of_keeps (by simp) (by simp) (by simp) (by simp) (by simp) (.of_segs (by simp))

theorem aside_answer (r : Response) (s : State) : Aside s (s.answer r) := by
  rw [State.answer, State.endTransaction]
  exact aside_modMtp _ s

theorem aside_dropRound (s : State) : Aside s s.dropRound :=
  .of_keeps (by simp) (by simp) rfl (by simp) (by simp) (.of_segs (by simp))

/-- The start and clock unit changes, and no part state with movement records is left for one without. -/
theorem aside_modScu (f : Scu → Scu) (s : State) (h : s.part.moves → (f s.scu).part.moves) : Aside s (s.modScu f) :=
  ⟨rfl, .of_xu rfl, rfl, rfl, h, id, id, id, id⟩

/-- The walkway's state changes, its times among those that stand. -/
theorem aside_modWkp (f : Wkp → Wkp) (s : State) (h : s.wkp.timesInRange → (f s.wkp).timesInRange) : Aside s (s.modWkp f) :=
  ⟨rfl, .of_xu rfl, rfl, rfl, id, id, id, .of_segs (by simp), h⟩

/-- A bulk order that neither makes nor ends HELD. -/
theorem aside_mapCells {f : Cell → Cell} (hf : ∀ c i, f c = .held i ↔ c = .held i) (s : State) : Aside s (s.mapCells f) :=
  ⟨rfl, sameHeld_mapCells hf s, rfl, rfl, id, id, id, .of_segs (by simp), id⟩

theorem aside_setUnmatched (l : List Unmatched) (s : State) (h : s.xu.unmatched.length ≤ 4 → l.length ≤ 4) :
    Aside s (s.setUnmatched l) := ⟨rfl, .of_parts rfl rfl, rfl, rfl, id, id, h, .of_segs (by simp), id⟩

theorem aside_addUnmatched (u : Unmatched) (s : State) : Aside s (s.addUnmatched u) := by
  unfold State.addUnmatched
  split
  · exact aside_setUnmatched _ s fun _ => by simp; omega
  · exact .refl s

theorem aside_sendDue (i : Arm) (item : SendItem) (s : State) : Aside s (s.sendDue i item) := by
  rw [sendDue_eq]
  refine ⟨rfl, .of_xu rfl, rfl, rfl, id, fun hs j => ?_, id, id, id⟩
  simp only [Quad.get_set]
  split
  · next e =>
    subst e
    unfold withDue
    split
    · simp; omega
    · exact hs i
  · exact hs j

theorem aside_clearanceDue (i : Arm) (id : CarrierId) (s : State) : Aside s (s.clearanceDue i id) := by
  unfold State.clearanceDue
  split
  · exact .refl s
  · exact aside_sendDue _ _ s

theorem aside_refusalDue (i : Arm) (id : CarrierId) (r : RefusalReason) (s : State) : Aside s (s.refusalDue i id r) :=
  aside_sendDue _ _ s

theorem aside_dropClearances (id : CarrierId) (s : State) : Aside s (s.dropClearances id) :=
  ⟨rfl, .of_xu rfl, rfl, rfl, fun h => h,
    fun hs i => by simpa [State.dropClearances] using (List.length_filter_le _ _).trans (hs i), fun h => h, fun h => h,
    fun h => h⟩

theorem aside_takeItem (i : Arm) (rest : List SendItem) (m : Option LinkMessage) (s : State)
    (h : rest.length ≤ (s.aqu.sends.get i).length) : Aside s (s.takeItem i rest m) :=
  ⟨rfl, .of_xu rfl, rfl, rfl, id, fun hs j => by
    simp only [State.takeItem, Quad.get_set]
    split
    · exact h.trans (hs i)
    · exact hs j, id, id, id⟩

theorem aside_huntLink (i : Arm) (s : State) : Aside s (s.huntLink i) := ⟨rfl, .of_xu rfl, rfl, rfl, id, id, id, id, id⟩

/-- The segment unit's operations. -/
theorem aside_seg {s t : State} (ha : t.aqu = s.aqu) (hx : t.xu = s.xu) (hj : t.jar = s.jar) (hp : t.scu = s.scu)
    (hw : t.wkp = s.wkp) (hv : ViewsInRange s → ViewsInRange t) (hpending : t.pending = s.pending := by simp) : Aside s t :=
  .of_keeps ha hx (by rw [hj]) (by rw [hp]) hw hv hpending

theorem aside_evaluate (i : Arm) (s : State) : Aside s (s.evaluate i) :=
  aside_seg (by simp) (by simp) (by simp) (by simp) (by simp) viewsInRange_evaluate

theorem aside_countX (i : Arm) (s : State) : Aside s (s.countX i) :=
  aside_seg (by simp) (by simp) (by simp) (by simp) (by simp) viewsInRange_countX

theorem aside_countE (i : Arm) (consume : Bool) (s : State) : Aside s (s.countE i consume) :=
  aside_seg (by simp) (by simp) (by simp) (by simp) (by simp) viewsInRange_countE

theorem aside_isolate (i : Arm) (s : State) : Aside s (s.isolate i) :=
  aside_seg (by simp) (by simp) (by simp) (by simp) (by simp) viewsInRange_isolate

theorem aside_proveQuiet (i : Arm) (s : State) : Aside s (s.proveQuiet i) :=
  aside_seg (by simp) (by simp) (by simp) (by simp) (by simp) viewsInRange_proveQuiet

theorem aside_confirmArm (i : Arm) (s : State) : Aside s (s.confirmArm i) :=
  aside_seg (by simp) (by simp) (by simp) (by simp) (by simp) viewsInRange_confirmArm

theorem aside_closeLimits (s : State) : Aside s s.closeLimits :=
  aside_seg (by simp) (by simp) (by simp) (by simp) (by simp) viewsInRange_closeLimits

theorem aside_takeEntry (i : Arm) (k : EntryKind) (ep : Byte) (e : RawEntry) (s : State) : Aside s (s.takeEntry i k ep e) :=
  aside_seg (by simp) (by simp) (by simp) (by simp) (by simp) viewsInRange_takeEntry

/-- The end of an event. -/
theorem aside_finish (old s : State) : Aside s (State.finish old s) :=
  .of_keeps (by simp) (by simp) (by simp) (by simp) (by simp) viewsInRange_finish

/-! ### The walkway -/

theorem aside_startInterval (s : State) : Aside s s.startInterval := by
  unfold State.startInterval
  split
  · exact aside_modWkp _ s id
  · exact .refl s

theorem aside_openTest (s : State) : Aside s s.openTest := by
  unfold State.openTest
  split
  · exact (aside_modWkp _ s id).trans (aside_trigger _)
  · exact .refl s

theorem aside_latchPoint (s : State) : Aside s s.latchPoint := by
  have h1 : Aside s (s.modWkp fun w => { w with latchedP := w.stagedP, latchedW := w.stagedW }) :=
    aside_modWkp _ s fun ⟨h, _⟩ => ⟨h, h⟩
  unfold State.latchPoint
  dsimp only
  split
  · exact (h1.trans (aside_modWkp _ _ id)).trans (aside_startInterval _)
  · exact (h1.trans (aside_modWkp _ _ id)).trans (aside_openTest _)

theorem aside_suspendWalkway (s : State) : Aside s s.suspendWalkway := aside_modWkp _ s id

theorem aside_pressButton (s : State) : Aside s s.pressButton := by
  unfold State.pressButton
  split
  · dsimp only
    split
    · exact (aside_modWkp _ s id).trans (aside_latchPoint _)
    · exact aside_modWkp _ s id
  · exact .refl s

end Sys2Proof.Machine

namespace Sys2Proof.Machine

/-! ### Chains of acts -/

theorem aside_takeReport (i : Arm) (f : FloorReport) (entry : Option RawEntry) (s : State) :
    Aside s (s.takeReport i f entry) := by
  have epoch : ∀ u : State, Aside u (u.compareEpoch i f.epoch) := fun u => by
    unfold State.compareEpoch
    split
    · exact aside_modNbr _ _ u
    · split
      · exact .refl u
      · exact (aside_modNbr _ _ u).trans (aside_raise _ _)
  have mismatch : ∀ (m : Mismatch) (u : State), Aside u (u.setMismatch i m) := fun m u => by
    have h1 : Aside u (if (m != .none && (u.nbr i).mismatch != m) = true
        then (u.modNbr i fun n => { n with mismatch := m }).raise .configMismatch
        else u.modNbr i fun n => { n with mismatch := m }) := by
      split
      · exact (aside_modNbr _ _ u).trans (aside_raise _ _)
      · exact aside_modNbr _ _ u
    unfold State.setMismatch
    dsimp only
    split
    · exact h1
    · exact h1.trans (aside_isolate _ _)
  have capacity : ∀ (e : RawEntry) (u : State), Aside u (u.compareCapacity i e) := fun e u => by
    unfold State.compareCapacity
    split
    · exact (aside_modNbr _ _ u).trans (aside_raise _ _)
    · exact .refl u
  have live : ∀ u : State, Aside u (u.modNbr i fun n =>
      { n with state := .live, node := (nodeState f.status).map fun p => (p, f.status.getLsbD 2) }) := aside_modNbr i _
  have hand : ∀ (e : RawEntry) (u : State), Aside u (u.handEntry i f.epoch e) := fun e u =>
    ((capacity e u).trans (aside_modNbr i _ _)).trans (aside_takeEntry _ _ _ _ _)
  have h1 := (((aside_modNbr i (fun n => { n with silence := 0, late := false }) s).trans (epoch _)).trans (live _))
  unfold State.takeReport
  dsimp only
  cases entry with
  | none => exact h1.trans (mismatch _ _)
  | some e => exact (h1.trans (mismatch _ _)).trans (hand e _)

theorem aside_takeRequest (i : Arm) (epoch : Byte) (s : State) : Aside s (s.takeRequest i epoch) := by
  have report : ∀ u : State, Aside u (if u.part.reporting = true then u.scheduleChange else u) := fun u => by
    split
    · exact aside_scheduleChange u
    · exact .refl u
  unfold State.takeRequest
  dsimp only
  split
  · exact (aside_modNbr _ _ s).trans (report _)
  · exact (((aside_modNbr _ _ s).trans (aside_raise _ _)).trans (aside_isolate _ _)).trans (report _)

theorem aside_neighbourSilence (i : Arm) (s : State) : Aside s (s.neighbourSilence i) := by
  have h1 := aside_modNbr i (fun n => { n with silence := max n.silence (silenceWindow s.cfg) }) s
  unfold State.neighbourSilence
  dsimp only
  split
  · exact ((h1.trans (aside_modNbr _ _ _)).trans (aside_raise _ _)).trans (aside_isolate _ _)
  · split
    · exact h1
    · exact (h1.trans (aside_modNbr _ _ _)).trans (aside_raise _ _)
  · exact h1

theorem aside_startReports (s : State) : Aside s s.startReports :=
  (aside_modTx _ s).trans (aside_scheduleChange _)

theorem aside_listenTest (s : State) : Aside s s.listenTest := by
  unfold State.listenTest
  split
  · next h =>
    refine (aside_modScu _ s fun hp => ?_).trans (aside_startReports _)
    simp only [Bool.and_eq_true, beq_iff_eq] at h
    simp [h.1, PartState.moves] at hp
  · exact .refl s

theorem acts_overdueEnds {g : Bool} (s : State) : Acts g s s.endOverdue := .of_act (.endOverdue s)

/-- What hold entry and the entry into FAULTED have in common. -/
theorem acts_withdrawAll {g : Bool} (s : State) : Acts g s s.holdGrants.clearanceAll.suspendWalkway := by
  have h : Acts g s.holdGrants s.holdGrants.clearanceAll :=
    Acts.foldl (fun u i => Acts.foldl (fun v (c : Carrier) => .of_aside (aside_clearanceDue i c.id v)) _ u) _ _
  exact ((Acts.of_act (.holdGrants s)).trans h).aside (aside_suspendWalkway _)

theorem acts_holdEntry {g : Bool} (s : State) : Acts g s s.holdEntry := by
  have h1 : Acts g s s.endOverdue.dropRound := (acts_overdueEnds s).aside (aside_dropRound _)
  unfold State.holdEntry
  dsimp only
  split
  · exact (h1.aside (aside_mapCells toEmergency_held _)).trans (acts_withdrawAll _)
  · exact h1.trans (acts_withdrawAll _)

theorem aside_addToHold (c : HoldCause) (s : State) : Aside s (s.addToHold c) := by
  have carrier : ∀ f, Aside s ((s.modHld f).mapCells Cell.toEmergency) := fun f =>
    (aside_modHld f s).trans (aside_mapCells toEmergency_held _)
  cases c with
  | operator => exact aside_modHld _ s
  | overrun =>
    unfold State.addToHold
    dsimp only
    split
    · exact aside_modHld _ s
    · exact carrier _
  | unauthorised =>
    unfold State.addToHold
    dsimp only
    split
    · exact aside_modHld _ s
    · exact carrier _

theorem acts_addCause {g : Bool} (c : HoldCause) (s : State) : Acts g s (s.addCause c) := by
  have working : Acts g s (if s.held then s.addToHold c else (s.modHld (Hld.add c)).holdEntry) := by
    split
    · exact .of_aside (aside_addToHold c s)
    · exact (Acts.of_aside (aside_modHld _ s)).trans (acts_holdEntry _)
  have other : Acts g s (s.modHld (Hld.add c)) := .of_aside (aside_modHld _ s)
  unfold State.addCause
  cases s.part
  · exact other
  · exact other
  · exact other
  · exact working
  · exact working
  · exact working
  · exact other

theorem acts_enterFaulted {g : Bool} (s : State) : Acts g s s.enterFaulted := by
  have reports : Aside s (if (s.part == .listening) = true then s.startReports else s) := by
    split
    · exact aside_startReports s
    · exact .refl s
  unfold State.enterFaulted
  split
  · exact .refl s
  · dsimp only
    generalize (if (s.part == .listening) = true then s.startReports else s) = u at reports
    have faulted : Aside u ((u.closeLimits.setPart .faulted).modScu fun k =>
        { k with listening := .stopped, crossingQuiet := .stopped }) :=
      ((aside_closeLimits u).trans (aside_modScu (fun k => { k with part := .faulted }) _ fun _ => .inr rfl)).trans
        (aside_modScu _ _ id)
    have stopped := (reports.trans faulted).trans (aside_modHld (fun h => { h with settle := .stopped }) _)
    exact ((((Acts.of_aside stopped).trans (acts_overdueEnds _)).aside (aside_dropRound _)).aside
      (aside_mapCells toEmergency_held _)).trans (acts_withdrawAll _)

theorem granting_congr {s t : State} (hs : t.scu = s.scu) (hh : t.hld = s.hld) : t.granting = s.granting := by
  rw [State.granting, State.granting, State.part, State.part, State.held, State.held, hs, hh]

theorem acts_overrunCheck {g : Bool} (i : Arm) (id : CarrierId) {s : State} (hg : s.granting = g) :
    Acts g s (s.overrunCheck i id) := by
  subst hg
  unfold State.overrunCheck
  cases hc : s.head i with
  | none => exact .refl s
  | some c =>
    dsimp only
    split
    · next test =>
      simp only [Bool.and_eq_true, bne_iff_ne] at test
      split
      · next rescue =>
        simp only [State.rescuable, State.permitted, Bool.and_eq_true, bne_iff_ne] at rescue
        exact (Acts.of_act (.grant i c true rescue.1.1.1.1.1.1 hc test.1.1.2 fun e => rescue.1.1.1.2.1 e.symm)).aside
          (aside_raise _ _)
      · exact (Acts.of_aside (aside_raise _ s)).trans (acts_addCause _ _)
    · exact .refl s

theorem acts_afterGrant {g : Bool} (id : CarrierId) (s : State) : Acts g s (s.afterGrant id) := by
  have skips : Acts g s (s.raiseSkips id) := Acts.foldl (fun u i => .of_act (.raiseSkip u id i)) _ s
  have seek : ∀ u : State, Acts g u u.seekOverdue := fun u => by
    unfold State.seekOverdue
    split
    · exact .refl u
    · split
      · exact .refl u
      · next c hc =>
        obtain ⟨i, -, hi⟩ := List.mem_filterMap.mp (List.mem_of_find?_eq_some hc)
        have waits := List.find?_some hc
        simp only [State.designable, State.waitsOnCrossing, State.routeOpen, Bool.and_eq_true, beq_iff_eq] at waits
        exact .of_act (.designate i c hi waits.2.1.1.1.1)
  exact (skips.trans (seek _)).aside (aside_trigger _)

theorem acts_followOnTest {g : Bool} (i : Arm) {s : State} (hg : s.granting = g) : Acts g s (s.followOnTest i) := by
  subst hg
  unfold State.followOnTest
  cases s.move i with
  | none => exact .refl s
  | some m =>
    cases hh : s.head i with
    | none => exact .refl s
    | some h =>
      dsimp only
      split
      · next test =>
        simp only [State.followOnAllowed, Bool.and_eq_true, beq_iff_eq] at test
        have waits : h.state ≠ .granted := by simp [test.2.1.1.1.1.1.1.1]
        exact (Acts.of_act (.followOn i h test.2.2 hh waits)).trans (acts_afterGrant _ _)
      · exact .refl s

theorem acts_round (s : State) : Acts s.granting s s.round := by
  have h1 : Aside s ({ s with jar := { s.jar with due := false } } : State) := aside_dropRound s
  have h2 : Acts s.granting s ({ s with jar := { s.jar with due := false } } : State).testOverdueExit := by
    unfold State.testOverdueExit
    split
    · exact .of_aside h1
    · split
      · exact .of_aside h1
      · exact (Acts.of_aside h1).trans (acts_overdueEnds _)
  have g2 : ({ s with jar := { s.jar with due := false } } : State).testOverdueExit.granting = s.granting :=
    granting_congr (by simp) (by simp)
  have test : ∀ (l : List Arm) (t : State), t.granting = s.granting →
      Acts s.granting t (l.foldl State.followOnTest t) ∧ (l.foldl State.followOnTest t).granting = s.granting := by
    intro l
    induction l with
    | nil => exact fun t ht => ⟨.refl t, ht⟩
    | cons i l ih =>
      intro t ht
      obtain ⟨h, h'⟩ := ih (t.followOnTest i) ((granting_congr (by simp) (by simp)).trans ht)
      exact ⟨(acts_followOnTest i ht).trans h, h'⟩
  have candidate : ∀ t : State, t.granting = s.granting → Acts s.granting t t.grantCandidate := by
    intro t ht
    unfold State.grantCandidate
    split
    · exact .refl t
    · next c hc =>
      have member := List.mem_of_find?_eq_some hc
      have open' := List.find?_some hc
      simp only [State.eligible, State.routeOpen, State.permitted, Bool.and_eq_true, beq_iff_eq, bne_iff_ne] at open'
      have head : c ∈ t.headsInOrder := by
        simp only [State.candidates, List.mem_append, List.mem_filter] at member
        rcases member with (⟨h, -⟩ | ⟨⟨h, -⟩, -⟩) | ⟨⟨h, -⟩, -⟩ <;> exact h
      obtain ⟨i, -, hi⟩ := List.mem_filterMap.mp head
      have waits : c.state ≠ .granted := by simp [open'.1.1.1.1.1.1]
      have grant : Acts s.granting t (t.executeGrant c false) := by
        cases hg : t.granting with
        | true => exact .of_act (.grant i c false (ht ▸ hg) hi waits fun e => open'.1.1.1.2.1 e.symm)
        | false => simp [State.executeGrant, State.grantExecutable, hg]; exact .refl t
      have turn : Aside (t.executeGrant c false)
          ({ t.executeGrant c false with jar := (t.executeGrant c false).jar.turnAway c } : State) :=
        ⟨rfl, .of_xu rfl, rfl, rfl, id, id, id, id, id⟩
      exact (grant.aside turn).trans (acts_afterGrant _ _)
  obtain ⟨h3, g3⟩ := test ({ s with jar := { s.jar with due := false } } : State).testOverdueExit.jar.armOrder _ g2
  exact (h2.trans h3).trans (candidate _ g3)

theorem recordOn_isSome_of_queuedOn {s : State} {id : CarrierId} {i : Arm} (h : s.queuedOn id = some i) :
    (s.recordOn i id).isSome := by
  have := List.find?_some h
  simpa using this

theorem acts_lapse {g : Bool} (id : CarrierId) (s : State) : Acts g s (s.lapse id) := by
  unfold State.lapse
  cases h : s.queuedOn id with
  | none => exact .refl s
  | some i =>
    have lapsed : ∀ c : Carrier, c.Unseats c.toLapsed := fun c => ⟨rfl, rfl, by
      simp only [Carrier.toLapsed]
      split <;> simp⟩
    exact ((Acts.of_act (.unseat i id _ (recordOn_isSome_of_queuedOn h) lapsed)).aside (aside_clearanceDue _ _ _)).aside
      (aside_raise _ _)

theorem acts_close {g : Bool} (i : Arm) (f : Closure → Closure) (s : State) : Acts g s (s.close i f) := by
  have h1 : Aside s ({ s with closures := s.closures.set i (f (s.closures.get i)) } : State) :=
    ⟨rfl, .of_xu rfl, rfl, rfl, id, id, id, id, id⟩
  unfold State.close
  dsimp only
  split
  · exact .of_aside h1
  · split
    · exact (Acts.of_aside h1).trans (acts_overdueEnds _)
    · exact .of_aside h1

theorem acts_removeCarrier {g : Bool} {i : Arm} {id : CarrierId} {s : State} (h : s.queuedOn id = some i) :
    Acts g s (s.removeCarrier i id) :=
  (Acts.of_act (.remove i id h)).aside (aside_dropClearances _ _)

end Sys2Proof.Machine

namespace Sys2Proof.Machine

/-! ### Every command is a chain of acts -/

theorem acts_event {g : Bool} {f : State → State} {s : State} (h : Acts g s (f s)) : Acts g s (s.event f) := by
  unfold State.event
  split
  · exact .refl s
  · exact h.aside (aside_finish s (f s))

theorem acts_plainEvent {g : Bool} {f : State → State} {s : State} (h : Acts g s (f s)) : Acts g s (s.plainEvent f) := by
  unfold State.plainEvent
  split
  · exact .refl s
  · exact h

/-- An effect that may not be taken. -/
theorem acts_ite {g : Bool} {p : Prop} [Decidable p] {s t : State} (h : p → Acts g s t) : Acts g s (if p then t else s) := by
  split
  · next hp => exact h hp
  · exact .refl s

theorem acts_onMessage {link : Arm} {id : CarrierId} {handle : State → State} {s : State}
    (h : ∀ u : State, u.granting = s.granting → Acts s.granting u (handle u)) :
    Acts s.granting s (s.onMessage link id handle) := by
  have hunt : Acts s.granting s (s.huntLink link) := .of_aside (aside_huntLink link s)
  have refuse : Acts s.granting s ((s.huntLink link).refusalDue link id .notReady) := hunt.aside (aside_refusalDue _ _ _ _)
  have handled : Acts s.granting s (handle (s.huntLink link)) := hunt.trans (h _ rfl)
  unfold State.onMessage
  dsimp only
  split
  · split <;> assumption
  · exact hunt

theorem wake_amends {c d : Carrier} (h : d.state = c.state) (he : c.state = .granted → d.exit = c.exit) :
    c.Amends d.wake := by
  refine ⟨?_, he⟩
  simp only [Carrier.wake, h]
  split <;> simp_all

theorem acts_reannounceUnderGrant {i : Arm} {c : Carrier} (q : Request) {s : State} (known : (s.recordOn i c.id).isSome) :
    Acts s.granting s (s.reannounceUnderGrant i c q) := by
  unfold State.reannounceUnderGrant
  split
  · have refused : Acts s.granting s (s.refusalDue i c.id .committed) := .of_aside (aside_refusalDue _ _ _ s)
    have stored : ∀ u : State, Acts s.granting u (u.onRecord i c.id fun r =>
        { r with distance := q.distance, speed := q.speed }.heard) := fun u =>
      .of_act (.amend i c.id _ (fun _ => ⟨rfl, rfl⟩) fun _ _ => ⟨Iff.rfl, fun _ => rfl⟩)
    exact (refused.trans (stored _)).aside (aside_clearanceDue _ _ _)
  · have unseated : Acts s.granting s ((s.withdrawGrant c.id).onRecord i c.id fun r =>
        { (r.retake q).heard with state := .waiting, skip := 0 }) :=
      .of_act (.unseat i c.id _ known fun r => ⟨rfl, rfl, CarrierState.noConfusion⟩)
    exact (unseated.aside (aside_clearanceDue _ _ _)).trans (acts_overrunCheck i c.id (granting_congr (by simp) (by simp)))

theorem acts_acceptReannounce {i : Arm} {id : CarrierId} {q : Request} {s : State}
    (same : ∀ c, s.recordOn i id = some c → c.state = .granted → q.exit = c.exit) :
    Acts s.granting s (s.acceptReannounce i id q) := by
  have amended : Acts s.granting s (s.onRecord i id fun c => (c.retake q).heard.wake) :=
    .of_act (.amend i id _ (fun _ => ⟨rfl, rfl⟩) fun c hc => wake_amends rfl (same c hc))
  exact (amended.aside (aside_clearanceDue _ _ _)).trans (acts_overrunCheck i id (granting_congr (by simp) (by simp)))

theorem announceRefusal_none {s : State} {i : Arm} {id : CarrierId} {q : Request} (h : s.announceRefusal i id q = none) :
    s.queuedOn id = none ∧ (s.queue i).length < s.queueCapacity i := by
  unfold State.announceRefusal at h
  split_ifs at h with _ _ _ duplicate full
  simp only [Bool.or_eq_true, not_or, Option.isSome_iff_ne_none, ne_eq, not_not] at duplicate
  exact ⟨duplicate.1.1, Nat.lt_of_not_le full⟩

theorem acts_announceNew (i : Arm) (id : CarrierId) (q : Request) (s : State) : Acts s.granting s (s.announceNew i id q) := by
  unfold State.announceNew
  split
  · exact .of_aside (aside_refusalDue _ _ _ s)
  · next accepted =>
    obtain ⟨new, room⟩ := announceRefusal_none accepted
    have inserted : Acts s.granting s (s.onQueue i (insertRecord (newRecord i id q))) :=
      .of_act (.insert i _ rfl CarrierState.noConfusion new room)
    exact (inserted.aside (aside_clearanceDue _ _ _)).trans (acts_overrunCheck i id (granting_congr (by simp) (by simp)))

theorem acts_handleAnnounce (i : Arm) (id : CarrierId) (q : Request) (s : State) :
    Acts s.granting s (s.handleAnnounce i id q) := by
  unfold State.handleAnnounce
  cases hc : s.recordOn i id with
  | none => exact acts_announceNew i id q s
  | some c =>
    have hid : c.id = id := by simpa using List.find?_some hc
    subst hid
    dsimp only
    unfold State.reannounce
    split
    · exact .of_aside (aside_refusalDue _ _ _ s)
    · split
      · exact .of_aside (aside_refusalDue _ _ _ s)
      · split
        · exact acts_reannounceUnderGrant q (by rw [hc]; rfl)
        · next other =>
          refine acts_acceptReannounce fun d hd granted => ?_
          rw [hc] at hd
          cases hd
          simp only [granted, beq_self_eq_true, Bool.true_and, bne_iff_ne, ne_eq, not_not] at other
          exact other.symm

theorem acts_handlePosition (link : Arm) (id : CarrierId) (distance speed : Nat) (s : State) :
    Acts s.granting s (s.handlePosition link id distance speed) := by
  unfold State.handlePosition
  split
  · next i _ =>
    have amended : Acts s.granting s (s.onRecord i id fun c => ({ c with distance := distance, speed := speed }).heard.wake) :=
      .of_act (.amend i id _ (fun _ => ⟨rfl, rfl⟩) fun _ _ => wake_amends rfl fun _ => rfl)
    have checked :=
      (amended.aside (aside_clearanceDue link id _)).trans (acts_overrunCheck i id (granting_congr (by simp) (by simp)))
    unfold State.takePosition State.retestDeferred
    dsimp only
    split
    · exact checked.trans (acts_lapse _ _)
    · exact checked
  · split
    · exact .of_aside (aside_clearanceDue _ _ s)
    · exact .of_aside (aside_refusalDue _ _ _ s)

theorem acts_handleWithdraw {g : Bool} (link : Arm) (id : CarrierId) (s : State) :
    Acts g s (s.handleWithdraw link id) := by
  unfold State.handleWithdraw
  split
  · next h => exact acts_removeCarrier h
  · split <;> exact .of_aside (aside_refusalDue _ _ _ s)

theorem acts_entryActivation {g : Bool} (i : Arm) {s : State} (hg : s.granting = g) : Acts g s (s.entryActivation i) := by
  subst hg
  have unauthorised : ∀ u : State, Acts s.granting u u.unauthorisedEntry := fun u => by
    unfold State.unauthorisedEntry
    dsimp only
    split
    · exact (Acts.of_aside (aside_raise _ u)).trans (acts_addCause _ _)
    · exact .of_aside (aside_raise _ u)
  have unmatched : (s.part.moves → s.oldestGranted i = none) → Acts s.granting s (s.unmatchedEntry i) := fun h =>
    (((Acts.of_act (.pass i h)).aside (aside_addUnmatched _ _)).aside (aside_countX _ _)).trans (unauthorised _)
  unfold State.entryActivation
  split
  · split
    · next m id oldest =>
      have entered : Acts s.granting s _ :=
        (Acts.of_act (.enter i m id ((s.recordOn i id).map Carrier.cls) oldest)).aside (aside_countX i _)
      have grants : ∀ v, (State.countX i (State.removeRecord i id (s.setMove i v))).granting = s.granting := fun v =>
        granting_congr (by simp) (by simp)
      unfold State.matchedEntry
      dsimp only
      split
      · exact entered.trans (acts_followOnTest i (grants _))
      · exact entered
    · next h => exact unmatched fun _ => h
  · next h =>
    refine unmatched fun hm => absurd ?_ h
    rcases hm with e | e <;> simp [e]

theorem acts_exitRelease {g : Bool} (j : Arm) (s : State) : Acts g s (s.exitRelease j) := .of_act (.exit s j)

end Sys2Proof.Machine

namespace Sys2Proof.Machine

/-! ### Start-up -/

theorem load_walk_times {image : List Byte} {c : JunctionConfig} (h : Image.load image = some c) :
    10 ≤ c.walkInterval ∧ c.walkInterval ≤ 600 ∧ c.walkOpen ≤ 120 := by
  simp only [Image.load] at h
  split_ifs at h
  cases h
  simp only [Image.clamp, clampTo]
  omega

theorem storeLoad_walk_times {st : Store} {c : JunctionConfig} (h : st.load = some c) : (Wkp.initial c).timesInRange := by
  cases st with
  | neverWritten => cases h
  | partlyWritten => cases h
  | written image => exact ⟨load_walk_times h, load_walk_times h⟩

theorem viewsInRange_loadedSeg (s : State) (i : Arm) : (s.loadedSeg i).r ≤ 15 ∧ (s.loadedSeg i).occ ≤ 15 := by
  unfold State.loadedSeg
  dsimp only
  split <;> exact ⟨Nat.zero_le _, Nat.zero_le _⟩

theorem aside_endLoading {s : State} (cfgLow : Bool) (hp : s.part = .loading) : Aside s (s.endLoading cfgLow) := by
  have fixed : ∀ f, Aside s (s.modScu f) := fun f => aside_modScu f s fun h => by simp [hp, PartState.moves] at h
  unfold State.endLoading
  split
  · exact fixed _
  · split
    · next c hc =>
      refine (fixed fun u =>
        { u with part := .settling, load := .loaded, cfg := c, cfgCrc := some (Image.crc c), monitor := true }).trans
        ⟨rfl, .of_xu rfl, rfl, rfl, id, id, id, fun _ i => ?_, fun _ => storeLoad_walk_times hc⟩
      simpa [State.loaded, State.seg] using viewsInRange_loadedSeg _ i
    · exact (fixed _).trans (aside_raise _ _)

theorem aside_enterListening {s : State} (osc : Byte) (raw : RawLevels) (hp : s.part = .settling) :
    Aside s (s.enterListening osc raw) := by
  have line : ∀ u : State, Aside u u.startLine := fun u => ⟨rfl, .of_xu rfl, rfl, rfl, id, id, id, id, id⟩
  have filters : ∀ u : State, Aside u (u.startFilters raw) := fun u => ⟨rfl, .of_parts rfl rfl, rfl, rfl, id, id, id, id, id⟩
  have quiet : ∀ u : State, Aside u u.startQuiet := fun u => ⟨rfl, .of_xu rfl, rfl, rfl, id, id, id, fun hu i => by
    have : u.startQuiet.seg i
        = if u.provesQuiet i && (u.seg i).unsure then { u.seg i with quiet := .running 0 } else u.seg i := by
      simp [State.startQuiet, State.seg]
    rw [this]
    split <;> exact hu i, id⟩
  have fixed : ∀ f, Aside s (s.modScu f) := fun f => aside_modScu f s fun h => by simp [hp, PartState.moves] at h
  exact ((((fixed _).trans (line _)).trans (filters _)).trans (quiet _)).trans (aside_listenTest _)

theorem aside_resolveCrossing (s : State) : Aside s s.resolveCrossing :=
  (((aside_mapCells resolve_held s).trans (aside_modScu _ _ fun _ => .inl rfl)).trans (aside_trigger _)).trans
    (aside_startInterval _)

theorem aside_reachStage {s : State} (osc : Byte) (raw : RawLevels) (hp : s.part = .settling) :
    Aside s (s.reachStage osc raw) := by
  have stage := aside_modScu (fun u => { u with stages := s.scu.stages + 1, refCount := stagePeriods (s.scu.stages + 1) }) s id
  unfold State.reachStage
  dsimp only
  split
  · exact stage.trans (aside_enterListening _ _ hp)
  · exact stage

/-! ### The floor line -/

theorem acts_sortFrame {g : Bool} {sender : Byte} {own : Bool} {take : Arm → State → State} (s : State)
    (h : ∀ i u, Aside u (take i u)) : Acts g s (s.sortFrame sender own take) := by
  unfold State.sortFrame
  split
  · split
    · exact .refl s
    · exact (Acts.of_aside (aside_raise _ s)).trans (acts_enterFaulted _)
  · split
    · exact .refl s
    · exact .of_aside (h _ _)

theorem aside_nbmReport (f : FloorReport) (i : Arm) (s : State) : Aside s (s.nbmReport f i) := by
  unfold State.nbmReport
  dsimp only
  split
  · exact (aside_takeReport _ _ _ s).trans (aside_listenTest _)
  · exact .refl s

theorem aside_nbmRequest (f : ReportRequest) (i : Arm) (s : State) : Aside s (s.nbmRequest f i) := by
  unfold State.nbmRequest
  split
  · exact .refl s
  · exact aside_takeRequest _ _ s

theorem aside_loseLine (s : State) : Aside s s.loseLine := by
  unfold State.loseLine
  split
  · exact aside_modTx _ s
  · split <;> exact aside_modTx _ s

theorem aside_periodicEnds (s : State) : Aside s s.periodicEnds := by
  have restart := aside_modTx (fun t => { t with periodic := .running 0 }) s
  unfold State.periodicEnds
  dsimp only
  split
  · exact restart.trans (aside_modTx _ _)
  · split
    · exact restart.trans (aside_modTx _ _)
    · exact restart
  · split
    · exact restart.trans (aside_modTx _ _)
    · exact restart
  · exact restart

/-! ### The junction's own events and the maintenance port -/

theorem acts_boxActivation {g : Bool} (s : State) : Acts g s s.boxActivation := by
  unfold State.boxActivation
  split
  · have added := aside_addUnmatched { id := 0, arrival := none, exit := none, source := .box } s
    unfold State.unauthorisedEntry
    dsimp only
    split
    · exact (Acts.of_aside (added.trans (aside_raise _ _))).trans (acts_addCause _ _)
    · exact .of_aside (added.trans (aside_raise _ _))
  · exact .refl s

theorem aside_detectorEvent (s : State) : Aside s s.detectorEvent := by
  unfold State.detectorEvent
  split
  · exact aside_modScu _ s id
  · exact .refl s

/-- The change of a filter is no change that a law reads. -/
theorem aside_filters {s t : State} (hx : t.xu.moves = s.xu.moves) (hc : t.xu.cells = s.xu.cells)
    (hu : t.xu.unmatched = s.xu.unmatched) (ha : t.aqu = s.aqu) (hj : t.jar = s.jar) (hp : t.scu = s.scu)
    (hs : t.segs = s.segs) (hw : t.wkp = s.wkp) (hpending : t.pending = s.pending := by rfl) : Aside s t :=
  ⟨by rw [ha], .of_parts hx hc, by rw [hj], hpending, by rw [State.part, State.part, hp]; exact id, by rw [ha]; exact id,
    by rw [hu]; exact id, .of_segs hs, by rw [hw]; exact id⟩

theorem acts_filterChange (input : Input) (s : State) : Acts s.granting s (match input with
      | .ent i => s.changeEnt i
      | .ext j => s.changeExt j
      | .box => s.changeBox
      | .button => s.changeButton) := by
  have turned : ∀ t : State, t.xu.moves = s.xu.moves → t.xu.cells = s.xu.cells → t.xu.unmatched = s.xu.unmatched →
      t.aqu = s.aqu → t.jar = s.jar → t.scu = s.scu → t.segs = s.segs → t.wkp = s.wkp → t.pending = s.pending →
      Acts s.granting s t.detectorEvent := fun t a b c d e f g h k =>
    .of_aside ((aside_filters a b c d e f g h k).trans (aside_detectorEvent t))
  have grants : ∀ t : State, t.scu = s.scu → t.hld = s.hld → t.detectorEvent.granting = s.granting := by
    intro t hs hh
    unfold State.detectorEvent
    split
    · simp [State.granting, State.part, State.held, State.modScu, hs, hh]
    · exact granting_congr hs hh
  cases input with
  | ent i =>
    dsimp only [State.changeEnt]
    have h := turned ({ s with xu := { s.xu with ent := s.xu.ent.set i (s.xu.ent.get i).change } } : State)
      rfl rfl rfl rfl rfl rfl rfl rfl rfl
    split
    · exact h.trans (acts_entryActivation i (grants _ rfl rfl))
    · exact h
  | ext j =>
    dsimp only [State.changeExt]
    have h := turned ({ s with xu := { s.xu with ext := s.xu.ext.set j (s.xu.ext.get j).change } } : State)
      rfl rfl rfl rfl rfl rfl rfl rfl rfl
    split
    · exact h
    · exact h.trans (.of_act (.exit _ j))
  | box =>
    dsimp only [State.changeBox]
    have h := turned ({ s with xu := { s.xu with box := s.xu.box.change } } : State) rfl rfl rfl rfl rfl rfl rfl rfl rfl
    split
    · exact h.trans (acts_boxActivation _)
    · exact h
  | button =>
    dsimp only [State.changeButton]
    have h : Aside s (s.modWkp fun w => { w with button := w.button.flip }) := aside_modWkp _ s id
    split
    · exact (Acts.of_aside h).aside (aside_pressButton _)
    · exact .of_aside h

theorem acts_detectorFault {g : Bool} (input : Input) (s : State) : Acts g s (match input with
    | .ent i =>
      if (s.xu.ent.get i).stuckTimer.isRunning then
        ({ s with xu := { s.xu with ent := s.xu.ent.set i (s.xu.ent.get i).fail } } : State).closeForDetector i
      else s
    | .ext j =>
      if (s.xu.ext.get j).stuckTimer.isRunning then
        ({ s with xu := { s.xu with ext := s.xu.ext.set j (s.xu.ext.get j).fail } } : State).closeForDetector j
      else s
    | .box =>
      if s.xu.box.stuckTimer.isRunning then
        ({ s with xu := { s.xu with box := s.xu.box.fail } } : State).raise .detectorFault
      else s
    | .button => s) := by
  have closed : ∀ (t : State) (i : Arm), Aside s t → Acts g s (t.closeForDetector i) := fun t i h =>
    (Acts.of_aside (h.trans (aside_raise _ t))).trans (acts_close _ _ _)
  have raised : ∀ t : State, Aside s t → Acts g s (t.raise .detectorFault) := fun t h =>
    .of_aside (h.trans (aside_raise _ t))
  cases input with
  | ent i => exact acts_ite fun _ => closed _ i (aside_filters rfl rfl rfl rfl rfl rfl rfl rfl)
  | ext j => exact acts_ite fun _ => closed _ j (aside_filters rfl rfl rfl rfl rfl rfl rfl rfl)
  | box => exact acts_ite fun _ => raised _ (aside_filters rfl rfl rfl rfl rfl rfl rfl rfl)
  | button => exact .refl s

theorem aside_releaseHold (s : State) : Aside s s.releaseHold := by
  unfold State.releaseHold
  split
  · exact ((aside_mapCells fromEmergency_held s).trans (aside_startInterval _)).trans (aside_trigger _)
  · exact .refl s

/-- A chain of acts that an owner's verdict ends. -/
def Verdict.Acted (g : Bool) (s : State) : Verdict → Prop
  | .ok t => Acts g s t
  | .refused _ t => Acts g s t

theorem acts_act {g : Bool} {code : Byte} {owner : State → Verdict} {s : State} (h : (owner s).Acted g s) :
    Acts g s (s.act code owner) := by
  have settled : ∀ v : Verdict, v.Acted g s → Acts g s (v.settle code) := fun v hv => by
    cases v with
    | ok t => exact Acts.aside hv (aside_answer _ t)
    | refused r t => exact Acts.aside hv (aside_answer _ t)
  unfold State.act
  refine settled _ ?_
  split
  · exact h
  · exact Acts.refl s

theorem acted_onArm {g : Bool} {b : Byte} {owner : Arm → State → Verdict} {s : State} (h : ∀ i, (owner i s).Acted g s) :
    (State.onArm b owner s).Acted g s := by
  unfold State.onArm
  split
  · exact Acts.refl s
  · split
    · exact h _
    · exact Acts.refl s

theorem acted_openArm {g : Bool} (i : Arm) (s : State) : (s.openArm i).Acted g s := by
  have opened : Aside s ({ s with closures := s.closures.set i ⟨false, false⟩ } : State) :=
    ⟨rfl, .of_xu rfl, rfl, rfl, id, id, id, id, id⟩
  unfold State.openArm
  split
  · exact Acts.refl s
  · split
    · exact Acts.of_aside (opened.trans (aside_trigger _))
    · exact Acts.refl s

theorem acted_operatorRelease {g : Bool} (s : State) : s.operatorRelease.Acted g s := by
  have lifted := aside_modHld (fun h => { h with operator := false }) s
  unfold State.operatorRelease
  dsimp only
  split
  · exact Acts.of_aside lifted
  · split
    · exact Acts.of_aside (lifted.trans (aside_releaseHold _))
    · exact Acts.refl s

theorem aside_confirmCrossing (s : State) : Aside s s.confirmCrossing := by
  have emptied := (aside_setUnmatched [] s fun _ => Nat.zero_le _).trans (aside_openTest _)
  unfold State.confirmCrossing
  dsimp only
  split
  · exact emptied.trans (aside_resolveCrossing _)
  · exact emptied

theorem acted_confirmClear {g : Bool} (i : Arm) (s : State) : (s.confirmClear i).Acted g s := by
  unfold State.confirmClear
  split
  · exact Acts.refl s
  · split
    · exact Acts.refl s
    · exact Acts.of_aside (aside_confirmArm i s)

theorem acted_purge {g : Bool} (id : Half) (s : State) : (s.purge id).Acted g s := by
  unfold State.purge
  split
  · exact Acts.refl s
  · split
    · exact Acts.refl s
    · next h => exact acts_removeCarrier h

theorem acted_stageWalkway {g : Bool} (p w : Nat) (s : State) : (s.stageWalkway p w).Acted g s := by
  unfold State.stageWalkway
  split
  · next h => exact Acts.of_aside (aside_modWkp _ s fun hw => ⟨h, hw.2⟩)
  · exact Acts.refl s

theorem acts_settleTimer {g : Bool} (s : State) : Acts g s
    (let u := s.modHld fun h => { h with overrun := false, unauthorised := false, settle := .stopped }
     if u.held then u else u.releaseHold) := by
  have lifted := aside_modHld (fun h => { h with overrun := false, unauthorised := false, settle := .stopped }) s
  dsimp only
  split
  · exact .of_aside lifted
  · exact .of_aside (lifted.trans (aside_releaseHold _))

theorem aside_intervalEnds (s : State) : Aside s s.intervalEnds := by
  unfold State.intervalEnds
  split
  · exact aside_latchPoint s
  · dsimp only
    split
    · exact (aside_modWkp _ s id).trans (aside_latchPoint _)
    · exact aside_modWkp _ s id
  · exact .refl s

theorem aside_readArm (code b : Byte) (content : Arm → State → List Byte) (s : State) : Aside s (s.readArm code b content) := by
  unfold State.readArm
  split <;> exact aside_answer _ s

theorem relist_deferLapse (id : CarrierId) (e : Entry) :
    (e.deferLapse id).id = e.id ∧ (e.deferLapse id).status.isGranted = e.status.isGranted := by
  unfold Entry.deferLapse
  split
  · next h =>
    simp only [Entry.grantedTo, Bool.and_eq_true] at h
    exact ⟨rfl, h.2.symm⟩
  · exact ⟨rfl, rfl⟩

theorem relist_stall (id : CarrierId) (e : Entry) :
    (e.stall id).id = e.id ∧ (e.stall id).status.isGranted = e.status.isGranted := by
  obtain ⟨n, c, st⟩ := e
  unfold Entry.stall
  split
  · next h =>
    cases st with
    | granted start deferred => simp [Entry.inClearTime] at h
    | crossing clear stalled => exact ⟨rfl, rfl⟩
  · exact ⟨rfl, rfl⟩

end Sys2Proof.Machine

namespace Sys2Proof.Machine

/-- An event whose effect is a change aside. -/
theorem acts_asideEvent {g : Bool} {f : State → State} {s : State} (h : Aside s (f s)) : Acts g s (s.event f) :=
  acts_event (.of_aside h)

theorem acts_asidePlain {g : Bool} {f : State → State} {s : State} (h : Aside s (f s)) : Acts g s (s.plainEvent f) :=
  acts_plainEvent (.of_aside h)

/-- A command that answers so is a chain of acts. -/
def Answers (g : Bool) (s : State) (o : Host.Outcome State Fault Refusal) : Prop := ∀ t, o = .next t → Acts g s t

theorem answers_next {g : Bool} {s t : State} (h : Acts g s t) : Answers g s (.next t) := fun _ e =>
  Host.Outcome.next.inj e ▸ h

theorem aside_ite {p : Prop} [Decidable p] {s t : State} (h : p → Aside s t) : Aside s (if p then t else s) := by
  split
  · next hp => exact h hp
  · exact .refl s

/-- Every command is a chain of acts, with grants only where the part grants as the command is taken. -/
theorem exec_acts (c : Instr) (s : State) : Answers s.granting s (exec c s) := by
  cases c with apply answers_next
  | powerOn => exact .of_act (.restart s ..)
  | rstNAssert =>
    have held : ∀ u : State, Aside u (u.modScu fun k => { k with rstHeld := true }) := fun u => aside_modScu _ u id
    exact acts_plainEvent ((Acts.of_act (.restart s ..)).aside (held _))
  | rstNDeassert => exact .of_aside (aside_modScu _ s id)
  | loadingComplete cfgLow => exact acts_asideEvent (aside_ite fun h => aside_endLoading cfgLow (by simpa using h))
  | referenceStage osc raw => exact acts_asideEvent (aside_ite fun h => aside_reachStage osc raw (by simpa using h))
  | referenceEdgeMissing => exact acts_asideEvent (aside_ite fun _ => aside_modScu _ s id)
  | clockLoss =>
    have lost := (aside_modScu (fun u => { u with onReference := false, monitor := false }) s id).trans
      (aside_raise .clockLoss _)
    exact acts_event (acts_ite fun _ => (Acts.of_aside lost).trans (acts_enterFaulted _))
  | listeningWindowExpiry =>
    refine acts_asideEvent (aside_ite fun h => ?_)
    simp only [Bool.and_eq_true, beq_iff_eq] at h
    exact (aside_modScu _ s fun hm => by simp [h.1, PartState.moves] at hm).trans (aside_startReports _)
  | crossingQuietExpiry =>
    refine acts_asideEvent (aside_ite fun _ => ?_)
    split
    · exact aside_resolveCrossing s
    · exact aside_modScu _ s id
  | recheckExpiry =>
    refine acts_event (acts_ite fun _ => ?_)
    have failed := (aside_modScu (fun u => { u with recheck := .stopped }) s id).trans (aside_raise .configFault _)
    split
    · exact .of_aside (aside_modScu _ s id)
    · exact (Acts.of_aside failed).trans (acts_enterFaulted _)
  | configWriteComplete =>
    refine acts_plainEvent ?_
    split
    · exact .refl s
    · exact .of_act (.restart s ..)
  | armLinkByteGap link => exact acts_asidePlain (aside_huntLink link s)
  | armLinkMessageDiscard link => exact acts_asidePlain (aside_huntLink link s)
  | announce link id => exact acts_event (acts_onMessage fun u hu => hu ▸ acts_handleAnnounce link id _ u)
  | position link id => exact acts_event (acts_onMessage fun u hu => hu ▸ acts_handlePosition link id _ _ u)
  | withdraw link id => exact acts_event (acts_onMessage fun u _ => acts_handleWithdraw link id u)
  | sendClearance link =>
    refine acts_asidePlain ?_
    split
    · exact .refl s
    · exact .refl s
    · next h => exact aside_takeItem link _ _ s (by rw [h]; simp)
  | sendRefusal link =>
    refine acts_asidePlain ?_
    split
    · exact .refl s
    · exact .refl s
    · next h => exact aside_takeItem link _ _ s (by rw [h]; simp)
  | carrierMute id =>
    refine acts_event ?_
    have silent : ∀ i, Acts s.granting s (s.onRecord i id (Carrier.fallSilent s.cfg.carrierSilence)) := fun i =>
      .of_act (.amend i id _ (fun _ => ⟨rfl, rfl⟩) fun c _ =>
        ⟨by simp only [Carrier.fallSilent]; split <;> simp_all, fun _ => rfl⟩)
    split
    · exact .refl s
    · split
      · exact .refl s
      · split
        · exact .refl s
        · exact (silent _).aside (aside_raise _ _)
  | arbitrationRound => exact acts_event (acts_ite fun _ => acts_round s)
  | detectorFilterChange input => exact acts_event (acts_ite fun _ => acts_filterChange input s)
  | detectorFault input => exact acts_event (acts_detectorFault input s)
  | startWindowExpiry id =>
    refine acts_event ?_
    split
    · exact .refl s
    · split
      · exact .refl s
      · refine acts_ite fun _ => ?_
        split
        · exact .of_act (.relist s _ _ (relist_deferLapse id))
        · exact acts_lapse id s
  | crossingStall id =>
    refine acts_event ?_
    split
    · exact .refl s
    · split
      · exact .refl s
      · exact acts_ite fun _ => (Acts.of_act (.relist s _ _ (relist_stall id))).aside (aside_raise _ _)
  | holdTimerExpiry arm =>
    have expired := aside_seg (s := s) (t := s.modSeg arm fun g => { g with hold := .expired })
      rfl rfl rfl rfl rfl (viewsInRange_modSeg fun hr ho => ⟨hr, ho⟩)
    exact acts_asideEvent (aside_ite fun _ => expired.trans (aside_evaluate arm _))
  | quietProof arm => exact acts_asideEvent (aside_ite fun _ => aside_proveQuiet arm s)
  | floorReportReceived frame own =>
    exact acts_event (acts_ite fun _ => (Acts.of_aside (aside_modRx _ s)).trans (acts_sortFrame _ (aside_nbmReport frame)))
  | reportRequestReceived frame own =>
    exact acts_event (acts_ite fun _ => (Acts.of_aside (aside_modRx _ s)).trans (acts_sortFrame _ (aside_nbmRequest frame)))
  | neighbourSilent arm => exact acts_asideEvent (aside_ite fun _ => aside_neighbourSilence arm s)
  | lineIdle => exact acts_asidePlain (aside_ite fun _ => aside_modRx _ s)
  | receiveGap => exact acts_asidePlain (aside_ite fun _ => aside_modRx _ s)
  | floorCharacterReceived char stopOk => exact acts_asidePlain (aside_ite fun _ => aside_modRx _ s)
  | attemptStart =>
    refine acts_asideEvent ?_
    split
    · exact .refl s
    · exact aside_ite fun _ => aside_modTx _ s
  | frameSent => exact acts_asideEvent (aside_ite fun _ => (aside_modTx _ s).trans (aside_modRx _ _))
  | lostLine => exact acts_asideEvent (aside_ite fun _ => aside_loseLine s)
  | backoffExpiry => exact acts_asideEvent (aside_ite fun _ => aside_modTx _ s)
  | periodicTimerExpiry => exact acts_asideEvent (aside_ite fun _ => aside_periodicEnds s)
  | spacingElapsed => exact acts_asideEvent (aside_ite fun _ => aside_modTx _ s)
  | lineFault => exact acts_asideEvent (aside_ite fun _ => (aside_modTx _ s).trans (aside_raise _ _))
  | intervalExpiry => exact acts_asideEvent (aside_ite fun _ => aside_intervalEnds s)
  | walkwayBlocked => exact acts_asideEvent (aside_ite fun _ => (aside_modWkp _ s id).trans (aside_raise _ _))
  | openTimerExpiry =>
    exact acts_asideEvent (aside_ite fun _ =>
      ((aside_modWkp _ s id).trans (aside_startInterval _)).trans (aside_trigger _))
  | settleTimerExpiry => exact acts_event (acts_ite fun _ => acts_settleTimer s)
  | idleFrame bits => exact acts_asidePlain (aside_modMtp _ s)
  | badCommandFrame code => exact acts_asidePlain (aside_answer _ s)
  | readStatus => exact acts_asidePlain (aside_answer _ s)
  | readEvents => exact acts_asidePlain (aside_answer _ s)
  | readQueue arm => exact acts_asidePlain (aside_readArm _ arm _ s)
  | readCrossing => exact acts_asidePlain (aside_answer _ s)
  | readSegment arm => exact acts_asidePlain (aside_readArm _ arm _ s)
  | readNeighbour arm => exact acts_asidePlain (aside_readArm _ arm _ s)
  | readConfig => exact acts_asidePlain (aside_answer _ s)
  | acknowledgeEvents kinds =>
    refine acts_asidePlain ?_
    split
    · exact (aside_modMtp _ s).trans (aside_answer _ _)
    · exact aside_answer _ s
  | setMask enables =>
    refine acts_asidePlain ?_
    split
    · exact (aside_modMtp _ s).trans (aside_answer _ _)
    · exact aside_answer _ s
  | closeArm arm => exact acts_event (acts_act (acted_onArm fun i => acts_close i _ s))
  | openArm arm => exact acts_event (acts_act (acted_onArm fun i => acted_openArm i s))
  | stop => exact acts_event (acts_act (owner := fun s => .ok (s.addCause .operator)) (acts_addCause .operator s))
  | release => exact acts_event (acts_act (acted_operatorRelease s))
  | confirmClearCrossing =>
    exact acts_event (acts_act (owner := fun s => .ok s.confirmCrossing) (Acts.of_aside (aside_confirmCrossing s)))
  | confirmClearArm target => exact acts_event (acts_act (acted_onArm fun i => acted_confirmClear i s))
  | purgeCarrier id => exact acts_event (acts_act (acted_purge id s))
  | setWalkway p w => exact acts_event (acts_act (acted_stageWalkway _ _ s))
  | writeConfig image =>
    refine acts_asidePlain ?_
    unfold State.beginWrite
    split
    · exact aside_answer _ s
    · split
      · exact (aside_modScu _ s id).trans (aside_answer _ _)
      · exact aside_answer _ s
  | restart => exact acts_plainEvent (.of_act (.restart s ..))
  | responseReady => exact acts_asidePlain (aside_modMtp _ s)

/-- A step is a chain of acts, from the state with the rest of its queue. -/
theorem step_keeps {I : State → Prop} (hI : ∀ g s t, Act g s t → I s → I t)
    (queue : ∀ (s : State) (rest : List Instr), I s → I { s with pending := rest }) {s t : State} (hs : I s)
    (h : step s = .next t) : I t := by
  have command : ∀ c u, I u → exec c u = .next t → I t := fun c u hu hc =>
    (exec_acts c u t hc).keeps (hI _) hu
  unfold step at h
  cases hp : s.pending with
  | cons c rest =>
    rw [hp] at h
    exact command c _ (queue s rest hs) h
  | nil =>
    rw [hp] at h
    dsimp only [stepIdle] at h
    cases ho : s.owed with
    | some c => rw [ho] at h; exact command c s hs h
    | none =>
      rw [ho] at h
      exact Host.Outcome.next.inj h ▸ hI true s _ (.tick s) hs

end Sys2Proof.Machine

/-! ## The law of the crossing -/

namespace Sys2Proof.Machine

theorem crossingLaw_fresh (cause : RestartCause) (osc : Byte) (store : Store) (rst : Bool) (now : Nat) (l : List Instr) :
    CrossingLaw (.fresh cause osc store rst now l) := by
  refine ⟨fun i m h => ?_, fun k i h => ?_⟩
  · simp [State.fresh, State.move, Xu.initial] at h
  · simp [State.fresh, State.cell, Xu.initial] at h

theorem Movement.tick_exit (m : Movement) : m.tick.exit = m.exit := rfl

theorem move_tick (s : State) (i : Arm) : s.tick.move i = (s.move i).map Movement.tick := by
  simp [State.move, State.tick, Xu.tick]

theorem crossingLaw_tick {s : State} (hs : CrossingLaw s) : CrossingLaw s.tick := by
  refine hs.of_lists (fun _ _ => Iff.rfl) (fun i m' h => ?_) fun i m h => ⟨m.tick, by rw [move_tick, h]; rfl⟩
  rw [move_tick] at h
  obtain ⟨m, hm, rfl⟩ := Option.map_eq_some_iff.mp h
  exact ⟨m, hm, rfl, by simpa [Movement.tick] using (hs.1 i m hm).2.1⟩

/-- The oldest GRANTED entry of a movement record, and its place in the list. -/
theorem oldestGranted_some {s : State} {i : Arm} {m : Movement} {id : CarrierId} (h : s.oldestGranted i = some (m, id)) :
    s.move i = some m ∧ ∃ e, m.carriers.find? (fun e => e.status.isGranted) = some e ∧ e.id = id := by
  unfold State.oldestGranted at h
  obtain ⟨m', hm, h⟩ := Option.bind_eq_some_iff.mp h
  obtain ⟨e, he, h⟩ := Option.map_eq_some_iff.mp h
  cases h
  exact ⟨hm, e, he, rfl⟩

theorem mapFirst_eq_nil {α : Type} {p : α → Bool} {f : α → α} {l : List α} (h : mapFirst p f l = []) : l = [] := by
  cases l with
  | nil => rfl
  | cons a rest =>
    unfold mapFirst at h
    split at h <;> cases h

theorem law_designate {c : Carrier} {s : State} (hs : CrossingLaw s) : CrossingLaw (s.designate c) := by
  refine hs.of_sameHeld ⟨by simp [State.designate, State.mapCellsIn, State.putQueue], fun k i => ?_⟩
  have : ∀ u : State, u.trigger.cell k = u.cell k := fun u => by simp [State.cell]
  rw [State.designate, this, cell_mapCellsIn]
  split
  · exact reserveFor_held _ _ _
  · rfl

/-- Every act keeps the law of the crossing. -/
theorem Act.keeps_crossingLaw (g : Bool) (s t : State) (h : Act g s t) (hs : CrossingLaw s) : CrossingLaw t := by
  cases h with
  | aside h => exact hs.of_sameHeld h.held
  | amend i id f => exact law_onQueue _ _ hs
  | insert i c => exact law_onQueue _ _ hs
  | pass i => exact law_onQueue _ _ hs
  | endOverdue => exact law_endOverdue hs
  | unseat i id f => exact law_onQueue _ _ (law_withdrawGrant _ hs)
  | remove i id => exact law_onQueue _ _ (law_withdrawGrant _ hs)
  | grant i c rescue grants head waits away => exact law_executeGrant hs away
  | followOn i c => exact law_executeFollowOn c hs
  | enter i m id cls oldest =>
    obtain ⟨hm, -⟩ := oldestGranted_some oldest
    exact law_onQueue _ _ (law_setMove_lists hs hm rfl fun e => (hs.1 i m hm).2.1 (mapFirst_eq_nil e))
  | exit j => exact law_exitRelease j hs
  | holdGrants => exact law_holdGrants hs
  | raiseSkip id i => exact hs.xu (by simp)
  | designate i c => exact law_designate hs
  | relist i f => exact law_mapEntries i f hs
  | tick => exact crossingLaw_tick hs
  | restart => exact crossingLaw_fresh _ _ _ _ _ _

/-- Two movement records under the law have no cell in common: a cell names one holder. -/
theorem CrossingLaw.disjoint {s : State} (hs : CrossingLaw s) {i j : Arm} {m n : Movement} (hij : i ≠ j)
    (hi : s.move i = some m) (hj : s.move j = some n) (k : Arm) : ¬ (k ∈ cellSet i m.exit ∧ k ∈ cellSet j n.exit) := by
  rintro ⟨hk, hk'⟩
  have held := (hs.1 i m hi).2.2 k hk
  rw [(hs.1 j n hj).2.2 k hk'] at held
  cases held
  exact hij rfl

/-- The last cell of a movement is the one before its exit arm. -/
theorem last_cell : ∀ i j : Arm, j ≠ i → j - 1 ∈ cellSet i j := by decide

/-- Settles O56: every act keeps the law (`Act.keeps_crossingLaw`); and two records toward one exit arm would both hold the
cell before it. -/
theorem everyStepKeepsTheCrossingLaw : Obligations.EveryStepKeepsTheCrossingLaw := by
  refine ⟨fun s t hs h => step_keeps Act.keeps_crossingLaw (fun s rest hs => hs.xu rfl) hs h,
    fun s i j m n hs hij hi hj => ⟨fun e => ?_, hs.disjoint hij hi hj⟩⟩
  refine hs.disjoint hij hi hj (m.exit - 1) ⟨last_cell i m.exit (hs.1 i m hi).1, ?_⟩
  rw [e]
  exact last_cell j n.exit (hs.1 j n hj).1

end Sys2Proof.Machine

/-! ## The bounds -/

namespace Sys2Proof.Machine

theorem Bounded.of_aside {s t : State} (h : Aside s t) : Bounded s → Bounded t := fun ⟨hq, hs, hu, hv, hw⟩ =>
  ⟨fun i => by simpa [State.queue, h.queues] using hq i, h.sends hs, h.unmatched hu, h.views hv, h.walk hw⟩

/-- The bounds read queues, send lists, the unmatched list, views and walkway times alone. -/
theorem Bounded.of_keeps {s t : State} (ha : t.aqu = s.aqu) (hu : t.xu.unmatched = s.xu.unmatched)
    (hv : ViewsInRange s → ViewsInRange t) (hw : t.wkp = s.wkp) : Bounded s → Bounded t := fun ⟨hq, hs, hl, hr, ht⟩ =>
  ⟨fun i => by simpa [State.queue, ha] using hq i, by rwa [ha], by rwa [hu], hv hr, by rwa [hw]⟩

theorem bounded_onQueue {i : Arm} {f : List Carrier → List Carrier} {s : State} (hf : (f (s.queue i)).length ≤ 4)
    (hs : Bounded s) : Bounded (s.onQueue i f) := by
  obtain ⟨hq, hl, hu, hv, hw⟩ := hs
  obtain ⟨-, cu, -, -, -, cs, -⟩ := onQueue_crossing i f s
  refine ⟨fun j => ?_, by rwa [cs], by rwa [cu], fun j => by simpa using hv j, by simpa using hw⟩
  rw [← List.length_map (f := Carrier.id), onQueue_ids]
  split
  · simpa using hf
  · simpa using hq j

theorem length_updateRecord (id : CarrierId) (f : Carrier → Carrier) (q : List Carrier) :
    (updateRecord id f q).length = q.length := List.length_map ..

theorem bounded_onRecord (i : Arm) (id : CarrierId) (f : Carrier → Carrier) {s : State} (hs : Bounded s) :
    Bounded (s.onRecord i id f) := bounded_onQueue (by simpa only [length_updateRecord] using hs.1 i) hs

theorem bounded_endMovement (i j : Arm) {s : State} (hs : Bounded s) : Bounded (s.endMovement i j) := by
  refine .of_aside (aside_openTest _) (.of_aside (aside_trigger _) ?_)
  exact hs.of_keeps (by rfl) rfl (.of_segs rfl) rfl

theorem bounded_releaseReservation (i : Arm) {s : State} (hs : Bounded s) : Bounded (s.releaseReservation i) :=
  hs.of_keeps (by simp) (by simp) viewsInRange_releaseReservation (by simp)

theorem bounded_setMove (i : Arm) (m : Option Movement) {s : State} (hs : Bounded s) : Bounded (s.setMove i m) :=
  hs.of_keeps rfl rfl (.of_segs rfl) rfl

theorem bounded_withdrawGrant (id : CarrierId) {s : State} (hs : Bounded s) : Bounded (s.withdrawGrant id) := by
  unfold State.withdrawGrant
  split
  · exact hs
  · split
    · exact hs
    · next i _ _ m _ =>
      have released := bounded_releaseReservation m.exit (bounded_setMove i (some { m with carriers := dropGranted id m.carriers }) hs)
      dsimp only
      split
      · exact bounded_endMovement _ _ released
      · exact released

theorem bounded_finishGrant (c : Carrier) {s : State} (hs : Bounded s) : Bounded (s.finishGrant c) :=
  .of_aside (aside_clearanceDue _ _ _) (bounded_onRecord _ _ _
    (hs.of_keeps (by simp) (by simp) viewsInRange_takeReservation (by simp)))

theorem bounded_executeGrant (c : Carrier) (rescue : Bool) {s : State} (hs : Bounded s) :
    Bounded (s.executeGrant c rescue) := by
  unfold State.executeGrant
  split
  · exact bounded_finishGrant c (hs.of_keeps rfl rfl (.of_segs rfl) rfl)
  · exact hs

theorem bounded_executeFollowOn (c : Carrier) {s : State} (hs : Bounded s) : Bounded (s.executeFollowOn c) := by
  unfold State.executeFollowOn
  split
  · exact hs
  · split
    · exact bounded_finishGrant c (bounded_setMove _ _ hs)
    · exact hs

theorem bounded_exitRelease (j : Arm) {s : State} (hs : Bounded s) : Bounded (s.exitRelease j) := by
  unfold State.exitRelease
  split
  · split
    · exact hs
    · have counted : ∀ i m, Bounded (State.countE j true (s.setMove i m)) := fun i m =>
        .of_aside (aside_countE j true _) (bounded_setMove i m hs)
      dsimp only
      split
      · exact bounded_endMovement _ _ (counted _ _)
      · exact counted _ _
  · split
    · refine .of_aside (((aside_setUnmatched _ s fun h => ?_).trans (aside_countE j false _)).trans (aside_openTest _)) hs
      exact (List.eraseP_sublist.length_le).trans h
    · exact .of_aside ((aside_raise _ s).trans (aside_countE j false _)) hs

theorem bounded_foldl {α : Type} {f : State → α → State} (hf : ∀ s a, Bounded s → Bounded (f s a)) (l : List α) {s : State}
    (hs : Bounded s) : Bounded (l.foldl f s) := by
  induction l generalizing s with
  | nil => exact hs
  | cons a l ih => exact ih (hf s a hs)

theorem bounded_holdGrants {s : State} (hs : Bounded s) : Bounded s.holdGrants := by
  refine bounded_foldl (fun t i ht => ?_) _ hs
  split
  · exact ht
  · refine bounded_foldl (fun u e hu => ?_) _ ht
    unfold State.holdEntryGrant
    split
    · exact bounded_onRecord _ _ _ (bounded_withdrawGrant _ hu)
    · exact hu

theorem length_insertRecord (c : Carrier) (q : List Carrier) : (insertRecord c q).length = q.length + 1 := by
  induction q with
  | nil => rfl
  | cons h rest ih =>
    unfold insertRecord
    split
    · simp [ih]
    · rfl

theorem queueCapacity_le (s : State) (i : Arm) : s.queueCapacity i ≤ 4 := by
  unfold State.queueCapacity
  split_ifs <;> omega

theorem bounded_putQueue {i : Arm} {q : List Carrier} {s : State} (hq : q.length ≤ 4) (hs : Bounded s) :
    Bounded (s.putQueue i q) := by
  obtain ⟨h, hl, hu, hv, hw⟩ := hs
  refine ⟨fun j => ?_, hl, hu, hv, hw⟩
  rw [queue_putQueue]
  split
  · exact hq
  · exact h j

theorem bounded_endOverdue {s : State} (hs : Bounded s) : Bounded s.endOverdue := by
  obtain ⟨hq, hl, hu, hv, hw⟩ := hs
  obtain ⟨-, dq, -, -, du, -, -, -, ds, -⟩ := endOverdue_does s
  refine ⟨fun j => ?_, by rwa [ds], by rwa [du], ViewsInRange.of_segs (by simp) hv, by simpa using hw⟩
  rw [dq]
  split
  · exact hq j
  · split
    · simpa only [length_updateRecord] using hq j
    · exact hq j

theorem bounded_raiseSkip (id : CarrierId) (i : Arm) {s : State} (hs : Bounded s) : Bounded (State.raiseSkip id s i) := by
  unfold State.raiseSkip
  split
  · exact hs
  · split
    · exact bounded_putQueue (by simpa only [length_updateRecord] using hs.1 i) hs
    · exact hs

theorem bounded_designate (c : Carrier) {s : State} (hs : Bounded s) : Bounded (s.designate c) := by
  have marked : Bounded (s.putQueue c.arrival (updateRecord c.id (fun r => { r with overdue := true }) (s.queue c.arrival))) :=
    bounded_putQueue (by simpa only [length_updateRecord] using hs.1 c.arrival) hs
  exact .of_aside (aside_trigger _) (marked.of_keeps rfl rfl (.of_segs rfl) rfl)

theorem bounded_tick {s : State} (hs : Bounded s) : Bounded s.tick := by
  obtain ⟨hq, hl, hu, hv, hw⟩ := hs
  refine ⟨fun i => ?_, hl, hu, fun i => ?_, hw⟩
  · simpa [State.tick, State.queue] using hq i
  · simpa [State.tick, State.seg, SegEnd.tick] using hv i

theorem bounded_fresh (cause : RestartCause) (osc : Byte) (store : Store) (rst : Bool) (now : Nat) (l : List Instr) :
    Bounded (.fresh cause osc store rst now l) := by
  have times : 10 ≤ Image.default.walkInterval ∧ Image.default.walkInterval ≤ 600 ∧ Image.default.walkOpen ≤ 120 := by decide
  refine ⟨fun i => ?_, fun i => ?_, Nat.zero_le _, fun i => ?_, times, times⟩
  · simp [State.fresh, State.queue, Aqu.initial]
  · simp [State.fresh, Aqu.initial]
  · simp [State.fresh, State.seg, SegEnd.initial]

/-- Every act keeps the bounds. -/
theorem Act.keeps_bounded (g : Bool) (s t : State) (h : Act g s t) (hs : Bounded s) : Bounded t := by
  cases h with
  | aside h => exact hs.of_aside h
  | amend i id f => exact bounded_onRecord i id f hs
  | insert i c _ _ _ room =>
    refine bounded_onQueue ?_ hs
    rw [length_insertRecord]
    exact room.trans_le (queueCapacity_le s i)
  | pass i => exact bounded_onQueue (by simpa using (Nat.sub_le _ 1).trans (hs.1 i)) hs
  | endOverdue => exact bounded_endOverdue hs
  | unseat i id f => exact bounded_onRecord i id f (bounded_withdrawGrant id hs)
  | remove i id =>
    have withdrawn := bounded_withdrawGrant id hs
    exact bounded_onQueue ((List.length_filter_le _ _).trans (withdrawn.1 i)) withdrawn
  | grant i c rescue => exact bounded_executeGrant c rescue hs
  | followOn i c => exact bounded_executeFollowOn c hs
  | enter i m id cls =>
    have entered := bounded_setMove i
      (some { m with carriers := mapFirst (fun e => e.status.isGranted) (Entry.enter cls) m.carriers }) hs
    exact bounded_onQueue ((List.length_filter_le _ _).trans (entered.1 i)) entered
  | exit j => exact bounded_exitRelease j hs
  | holdGrants => exact bounded_holdGrants hs
  | raiseSkip id i => exact bounded_raiseSkip id i hs
  | designate i c => exact bounded_designate c hs
  | relist i f =>
    unfold State.mapEntries
    split
    · exact hs
    · exact bounded_setMove _ _ hs
  | tick => exact bounded_tick hs
  | restart => exact bounded_fresh _ _ _ _ _ _

/-- Settles O57: every act keeps the bounds (`Act.keeps_bounded`). -/
theorem everyStepKeepsTheBounds : Obligations.EveryStepKeepsTheBounds := fun _ _ hs h =>
  step_keeps Act.keeps_bounded (fun _ _ hs => hs) hs h

end Sys2Proof.Machine

/-! ## The law of the queues -/

namespace Sys2Proof.Machine

/-- Every record stands on the queue of its arrival arm. -/
def Arrivals (s : State) : Prop := ∀ i, ∀ c ∈ s.queue i, c.arrival = i

theorem mem_updateRecord {id : CarrierId} {f : Carrier → Carrier} {q : List Carrier} {c : Carrier} :
    c ∈ updateRecord id f q ↔ ∃ d ∈ q, (if d.id = id then f d else d) = c := List.mem_map

theorem arrivals_updateRecord {id : CarrierId} {f : Carrier → Carrier} (hf : ∀ c : Carrier, (f c).arrival = c.arrival)
    {q : List Carrier} {i : Arm} (h : ∀ c ∈ q, c.arrival = i) : ∀ c ∈ updateRecord id f q, c.arrival = i := by
  intro c hc
  obtain ⟨d, hd, rfl⟩ := mem_updateRecord.mp hc
  split
  · rw [hf, h d hd]
  · exact h d hd

theorem arrivals_putQueue {i : Arm} {q : List Carrier} {s : State} (hq : ∀ c ∈ q, c.arrival = i) (hs : Arrivals s) :
    Arrivals (s.putQueue i q) := fun j c hc => by
  rw [queue_putQueue] at hc
  split at hc
  · next e => exact e ▸ hq c hc
  · exact hs j c hc

theorem Arrivals.of_queues {s t : State} (h : t.aqu.queues = s.aqu.queues) (hs : Arrivals s) : Arrivals t := fun i c hc =>
  hs i c (by simpa [State.queue, h] using hc)

theorem overdueStands_iff (s : State) (o : Overdue) :
    s.overdueStands o = true ↔ ∃ h, s.head o.arrival = some h ∧ h.id = o.id ∧ h.state = .waiting ∧ h.exit = o.exit := by
  unfold State.overdueStands
  cases s.head o.arrival with
  | none => simp
  | some h => simp [and_assoc]

theorem arrivals_endOverdue {s : State} (hs : Arrivals s) : Arrivals s.endOverdue := fun i c hc => by
  rw [(endOverdue_does s).2.1] at hc
  split at hc
  · exact hs i c hc
  · split at hc
    · refine arrivals_updateRecord ?_ (hs i) c hc
      exact fun _ => rfl
    · exact hs i c hc

/-- Where the designation ends, the law asks nothing more of it. -/
theorem queueLaw_endOverdue {s : State} (hs : Arrivals s) : QueueLaw s.endOverdue :=
  ⟨arrivals_endOverdue hs, fun o ho => by rw [(endOverdue_does s).1] at ho; cases ho⟩

/-- The test of the designation leaves the law of the queues (R85). -/
theorem queueLaw_checkOverdue {s : State} (hs : Arrivals s) : QueueLaw s.checkOverdue := by
  unfold State.checkOverdue
  split
  · next ho => exact ⟨hs, fun o h => by rw [ho] at h; cases h⟩
  · next o ho =>
    split
    · next stands => exact ⟨hs, fun o' h => by rw [ho] at h; cases h; exact (overdueStands_iff s o).mp stands⟩
    · exact queueLaw_endOverdue hs

theorem queueLaw_onQueue {i : Arm} {f : List Carrier → List Carrier} {s : State}
    (hf : ∀ c ∈ f (s.queue i), c.arrival = i) (hs : Arrivals s) : QueueLaw (s.onQueue i f) := by
  have put : Arrivals (s.putQueue i (f (s.queue i))) := arrivals_putQueue hf hs
  unfold State.onQueue
  dsimp only
  refine queueLaw_checkOverdue ?_
  split
  · exact put.of_queues (by simp)
  · exact put.of_queues (by simp)

theorem queueLaw_onRecord {i : Arm} {id : CarrierId} {f : Carrier → Carrier} {s : State}
    (hf : ∀ c : Carrier, (f c).arrival = c.arrival) (hs : Arrivals s) : QueueLaw (s.onRecord i id f) :=
  queueLaw_onQueue (arrivals_updateRecord hf (hs i)) hs

/-- The law reads the queues and the designation alone. -/
theorem QueueLaw.of_keeps {s t : State} (ha : t.aqu.queues = s.aqu.queues) (hj : t.jar.overdue = s.jar.overdue)
    (hs : QueueLaw s) : QueueLaw t :=
  ⟨Arrivals.of_queues ha hs.1, fun o ho => by
    rw [hj] at ho
    simpa [State.head, State.queue, ha] using hs.2 o ho⟩

theorem queueLaw_finishGrant (c : Carrier) {s : State} (hs : Arrivals s) : QueueLaw (s.finishGrant c) :=
  (queueLaw_onRecord (s := s.takeReservation c.exit) (i := c.arrival) (id := c.id)
    (f := fun r => { r with state := .granted, skip := 0 }) (fun _ => rfl) (hs.of_queues (by simp))).of_keeps
    (by simp [State.finishGrant, clearanceDue_eq]) (by simp [State.finishGrant])

theorem mem_insertRecord {c d : Carrier} {q : List Carrier} : d ∈ insertRecord c q ↔ d = c ∨ d ∈ q := by
  induction q with
  | nil => simp [insertRecord]
  | cons h rest ih =>
    unfold insertRecord
    split
    · simp only [List.mem_cons, ih]
      exact or_left_comm
    · simp

theorem withdrawGrant_overdue (id : CarrierId) (s : State) : (s.withdrawGrant id).jar.overdue = s.jar.overdue := by
  cases h : s.grantOf id with
  | none => rw [withdrawGrant_none h]
  | some i =>
    obtain ⟨m, hm, -⟩ := move_of_grantOf h
    obtain ⟨-, -, -, -, -, -, -, -, -, ho⟩ := withdrawGrant_does h hm
    exact ho

theorem arrivals_withdrawGrant (id : CarrierId) {s : State} (hs : Arrivals s) : Arrivals (s.withdrawGrant id) :=
  hs.of_queues (by simp)

theorem queueLaw_withdrawGrant (id : CarrierId) {s : State} (hs : QueueLaw s) : QueueLaw (s.withdrawGrant id) :=
  hs.of_keeps (by simp) (withdrawGrant_overdue id s)

theorem exitRelease_overdue (j : Arm) (s : State) : (s.exitRelease j).jar.overdue = s.jar.overdue := by
  cases h : s.exitMove j with
  | none =>
    unfold State.exitRelease
    simp only [h]
    split <;> simp
  | some i =>
    obtain ⟨m, hm, -⟩ := exitMove_some h
    obtain ⟨-, -, -, -, -, -, -, -, ho⟩ := exitRelease_matched h hm
    exact ho

theorem toWaiting_unseats (c : Carrier) : c.Unseats c.toWaiting := ⟨rfl, rfl, by
  simp only [Carrier.toWaiting]
  split <;> simp⟩

theorem queueLaw_holdGrants {s : State} (hs : QueueLaw s) : QueueLaw s.holdGrants := by
  have fold : ∀ {α : Type} (f : State → α → State), (∀ u a, QueueLaw u → QueueLaw (f u a)) → ∀ (l : List α) (u : State),
      QueueLaw u → QueueLaw (l.foldl f u) := fun f hf l => by
    induction l with
    | nil => exact fun u hu => hu
    | cons a l ih => exact fun u hu => ih _ (hf u a hu)
  refine fold _ (fun t i ht => ?_) _ _ hs
  split
  · exact ht
  · refine fold _ (fun u e hu => ?_) _ _ ht
    unfold State.holdEntryGrant
    split
    · exact queueLaw_onRecord (fun c => (toWaiting_unseats c).2.1) (arrivals_withdrawGrant _ hu.1)
    · exact hu

theorem head_updateRecord {id : CarrierId} {f : Carrier → Carrier} {q : List Carrier} :
    (updateRecord id f q).head? = q.head?.map fun c => if c.id = id then f c else c := List.head?_map

/-- A record replaced in place with its ID, arrival arm, state and exit leaves the law. -/
theorem queueLaw_putRecord {i : Arm} {id : CarrierId} {f : Carrier → Carrier} {s : State}
    (hf : ∀ c : Carrier, (f c).id = c.id ∧ (f c).arrival = c.arrival ∧ (f c).state = c.state ∧ (f c).exit = c.exit)
    (hs : QueueLaw s) : QueueLaw (s.putQueue i (updateRecord id f (s.queue i))) := by
  refine ⟨arrivals_putQueue (arrivals_updateRecord (fun c => (hf c).2.1) (hs.1 i)) hs.1, fun o ho => ?_⟩
  obtain ⟨h, hh, hid, hst, hex⟩ := hs.2 o ho
  rw [State.head, queue_putQueue]
  split
  · next e =>
    refine ⟨if h.id = id then f h else h, by rw [head_updateRecord, e, ← State.head, hh]; rfl, ?_⟩
    obtain ⟨f1, -, f3, f4⟩ := hf h
    split
    · exact ⟨f1.trans hid, f3.trans hst, f4.trans hex⟩
    · exact ⟨hid, hst, hex⟩
  · exact ⟨h, hh, hid, hst, hex⟩

theorem queueLaw_raiseSkip (id : CarrierId) (i : Arm) {s : State} (hs : QueueLaw s) : QueueLaw (State.raiseSkip id s i) := by
  unfold State.raiseSkip
  split
  · exact hs
  · split
    · exact queueLaw_putRecord (fun _ => ⟨rfl, rfl, rfl, rfl⟩) hs
    · exact hs

/-- The head of a queue. -/
theorem mem_queue_of_head {s : State} {i : Arm} {c : Carrier} (h : s.head i = some c) : c ∈ s.queue i :=
  List.mem_of_mem_head? (by rw [← State.head, h]; rfl)

/-- A WAITING head is designated: the designation stands for it. -/
theorem queueLaw_designate {i : Arm} {c : Carrier} {s : State} (hs : QueueLaw s) (head : s.head i = some c)
    (waits : c.state = .waiting) : QueueLaw (s.designate c) := by
  have arrival : c.arrival = i := hs.1 i c (mem_queue_of_head head)
  have mark : ∀ d : Carrier, ({ d with overdue := true } : Carrier).arrival = d.arrival := fun _ => rfl
  have put : Arrivals (s.putQueue c.arrival (updateRecord c.id (fun r => { r with overdue := true }) (s.queue c.arrival))) :=
    arrivals_putQueue (arrivals_updateRecord mark (hs.1 _)) hs.1
  refine ⟨put.of_queues (by simp [State.designate, State.mapCellsIn, State.putQueue, State.queue]), fun o ho => ?_⟩
  have made : o = ⟨c.id, c.arrival, c.exit⟩ := by
    simpa [State.designate, State.mapCellsIn, State.putQueue, eq_comm] using ho
  subst made
  have queue : (s.designate c).queue c.arrival
      = updateRecord c.id (fun r => { r with overdue := true }) (s.queue c.arrival) := by
    simp [State.designate, State.mapCellsIn, State.putQueue, State.queue]
  refine ⟨{ c with overdue := true }, ?_, rfl, waits, rfl⟩
  rw [State.head, queue, head_updateRecord, arrival, ← State.head, head]
  simp [arrival]

theorem queue_tick (s : State) (i : Arm) : s.tick.queue i = (s.queue i).map Carrier.tick := by
  simp [State.tick, State.queue]

theorem queueLaw_tick {s : State} (hs : QueueLaw s) : QueueLaw s.tick := by
  refine ⟨fun i c hc => ?_, fun o ho => ?_⟩
  · rw [queue_tick] at hc
    obtain ⟨d, hd, rfl⟩ := List.mem_map.mp hc
    exact hs.1 i d hd
  · obtain ⟨h, hh, hid, hst, hex⟩ := hs.2 o ho
    exact ⟨h.tick, by rw [State.head, queue_tick, List.head?_map, ← State.head, hh]; rfl, hid, hst, hex⟩

theorem queueLaw_fresh (cause : RestartCause) (osc : Byte) (store : Store) (rst : Bool) (now : Nat) (l : List Instr) :
    QueueLaw (.fresh cause osc store rst now l) := by
  refine ⟨fun i c hc => ?_, fun o ho => by cases ho⟩
  simp [State.fresh, State.queue, Aqu.initial] at hc

theorem queueLaw_executeGrant (c : Carrier) (rescue : Bool) {s : State} (hs : QueueLaw s) :
    QueueLaw (s.executeGrant c rescue) := by
  unfold State.executeGrant
  split
  · exact queueLaw_finishGrant c hs.1
  · exact hs

theorem queueLaw_executeFollowOn (c : Carrier) {s : State} (hs : QueueLaw s) : QueueLaw (s.executeFollowOn c) := by
  unfold State.executeFollowOn
  split
  · exact hs
  · split
    · exact queueLaw_finishGrant c hs.1
    · exact hs

theorem queueLaw_mapEntries (i : Arm) (f : Entry → Entry) {s : State} (hs : QueueLaw s) : QueueLaw (s.mapEntries i f) :=
  hs.of_keeps (by simp) (by simp)

/-- Every act keeps the law of the queues. -/
theorem Act.keeps_queueLaw (g : Bool) (s t : State) (h : Act g s t) (hs : QueueLaw s) : QueueLaw t := by
  cases h with
  | aside h => exact hs.of_keeps h.queues h.overdue
  | amend i id f same => exact queueLaw_onRecord (fun c => (same c).2) hs.1
  | insert i c arrival =>
    refine queueLaw_onQueue (fun d hd => ?_) hs.1
    rcases mem_insertRecord.mp hd with rfl | hd
    · exact arrival
    · exact hs.1 i d hd
  | pass i => exact queueLaw_onQueue (fun c hc => hs.1 i c (List.mem_of_mem_tail hc)) hs.1
  | endOverdue => exact queueLaw_endOverdue hs.1
  | unseat i id f _ unseats => exact queueLaw_onRecord (fun c => (unseats c).2.1) (arrivals_withdrawGrant id hs.1)
  | remove i id =>
    have withdrawn := arrivals_withdrawGrant id hs.1
    exact queueLaw_onQueue (fun c hc => withdrawn i c (List.mem_of_mem_filter hc)) withdrawn
  | grant i c rescue => exact queueLaw_executeGrant c rescue hs
  | followOn i c => exact queueLaw_executeFollowOn c hs
  | enter i m id cls => exact queueLaw_onQueue (fun c hc => hs.1 i c (List.mem_of_mem_filter hc)) hs.1
  | exit j => exact hs.of_keeps (by simp) (exitRelease_overdue j s)
  | holdGrants => exact queueLaw_holdGrants hs
  | raiseSkip id i => exact queueLaw_raiseSkip id i hs
  | designate i c head waits => exact queueLaw_designate hs head waits
  | relist i f => exact queueLaw_mapEntries i f hs
  | tick => exact queueLaw_tick hs
  | restart => exact queueLaw_fresh _ _ _ _ _ _

/-- Settles O58: every act keeps the law of the queues (`Act.keeps_queueLaw`). -/
theorem everyStepKeepsTheQueueLaw : Obligations.EveryStepKeepsTheQueueLaw := fun _ _ hs h =>
  step_keeps Act.keeps_queueLaw (fun _ _ hs => hs) hs h

end Sys2Proof.Machine

/-! ## The law of the grants

The law speaks of the queues, of the carriers GRANTED on each arm's movement record, and of that record's exit: `GrantsMatch`.
Each change of the three that the acts make is a lemma about `GrantsMatch`, and `GrantLaw` is it with the part state. -/

namespace Sys2Proof.Machine

/-- The carriers of a list's GRANTED entries, in its order. -/
def grantedIds (l : List Entry) : List CarrierId := (l.filter fun e => e.status.isGranted).map Entry.id

/-- The carriers GRANTED on the movement record of an arm. -/
def State.grantedOn (s : State) (i : Arm) : List CarrierId := ((s.move i).map fun m => grantedIds m.carriers).getD []

/-- The exit of the movement record of an arm. -/
def State.exitOf (s : State) (i : Arm) : Option Arm := (s.move i).map Movement.exit

/-- No ID is queued twice; and the carriers GRANTED on an arm's movement record are the GRANTED records of its queue, each once
and for the record's exit. -/
structure GrantsMatch (q : Arm → List Carrier) (g : Arm → List CarrierId) (x : Arm → Option Arm) : Prop where
  once : ∀ i, ((q i).map Carrier.id).Nodup
  apart : ∀ i j, i ≠ j → ∀ c ∈ q i, ∀ d ∈ q j, c.id ≠ d.id
  entry : ∀ i, ∀ n ∈ g i, ∃ c ∈ q i, c.id = n ∧ c.state = .granted ∧ x i = some c.exit
  record : ∀ i, ∀ c ∈ q i, c.state = .granted → c.id ∈ g i
  single : ∀ i, (g i).Nodup

theorem mem_grantedIds {l : List Entry} {n : CarrierId} :
    n ∈ grantedIds l ↔ ∃ e ∈ l, e.status.isGranted = true ∧ e.id = n := by
  simp [grantedIds, and_assoc]

theorem grantedOn_of_move {s : State} {i : Arm} {m : Movement} (h : s.move i = some m) :
    s.grantedOn i = grantedIds m.carriers := by simp [State.grantedOn, h]

theorem mem_grantedOn {s : State} {i : Arm} {n : CarrierId} :
    n ∈ s.grantedOn i ↔ ∃ m, s.move i = some m ∧ ∃ e ∈ m.carriers, e.status.isGranted = true ∧ e.id = n := by
  cases h : s.move i with
  | none => simp [State.grantedOn, h]
  | some m => simp [grantedOn_of_move h, mem_grantedIds]

theorem grantLaw_iff (s : State) :
    GrantLaw s ↔ GrantsMatch s.queue s.grantedOn s.exitOf ∧ ∀ i, s.move i ≠ none → s.part.moves := by
  constructor
  · rintro ⟨once, apart, entry, record, single, part⟩
    refine ⟨⟨once, apart, fun i n hn => ?_, fun i c hc hg => ?_, fun i => ?_⟩, part⟩
    · obtain ⟨m, hm, e, he, hg, rfl⟩ := mem_grantedOn.mp hn
      obtain ⟨c, hc, hid, hst, hex⟩ := entry i m hm e he hg
      exact ⟨c, hc, hid, hst, by simp [State.exitOf, hm, hex]⟩
    · obtain ⟨m, hm, e, he, hto⟩ := record i c hc hg
      simp only [Entry.grantedTo, Bool.and_eq_true, beq_iff_eq] at hto
      exact mem_grantedOn.mpr ⟨m, hm, e, he, hto.2, hto.1⟩
    · cases hm : s.move i with
      | none => simp [State.grantedOn, hm]
      | some m => rw [grantedOn_of_move hm]; exact single i m hm
  · rintro ⟨⟨once, apart, entry, record, single⟩, part⟩
    refine ⟨once, apart, fun i m hm e he hg => ?_, fun i c hc hg => ?_, fun i m hm => ?_, part⟩
    · obtain ⟨c, hc, hid, hst, hex⟩ := entry i e.id (mem_grantedOn.mpr ⟨m, hm, e, he, hg, rfl⟩)
      exact ⟨c, hc, hid, hst, by simpa [State.exitOf, hm, eq_comm] using hex⟩
    · obtain ⟨m, hm, e, he, hto, hid⟩ := mem_grantedOn.mp (record i c hc hg)
      exact ⟨m, hm, e, he, by simp [Entry.grantedTo, hto, hid]⟩
    · have := single i
      rwa [grantedOn_of_move hm] at this

/-! ### Changes of queues and grants -/

namespace GrantsMatch

variable {q q' : Arm → List Carrier} {g g' : Arm → List CarrierId} {x x' : Arm → Option Arm}

theorem eq_of_id (h : GrantsMatch q g x) {i j : Arm} {c d : Carrier} (hc : c ∈ q i) (hd : d ∈ q j) (e : c.id = d.id) :
    i = j ∧ c = d := by
  by_cases hij : i = j
  · subst hij
    exact ⟨rfl, List.inj_on_of_nodup_map (h.once i) hc hd e⟩
  · exact absurd e (h.apart i j hij c hc d hd)

/-- What the law reads of a record. -/
def face (c : Carrier) : CarrierId × CarrierState × Arm := (c.id, c.state, c.exit)

theorem ids_of_faces {l l' : List Carrier} (h : l'.map face = l.map face) : l'.map Carrier.id = l.map Carrier.id := by
  have := congrArg (List.map Prod.fst) h
  simpa [List.map_map, Function.comp_def, face] using this

theorem face_mem {l l' : List Carrier} (h : l'.map face = l.map face) {c : Carrier} (hc : c ∈ l) :
    ∃ d ∈ l', d.id = c.id ∧ d.state = c.state ∧ d.exit = c.exit := by
  have : face c ∈ l'.map face := h ▸ List.mem_map_of_mem hc
  obtain ⟨d, hd, e⟩ := List.mem_map.mp this
  simp only [face, Prod.mk.injEq] at e
  exact ⟨d, hd, e⟩

/-- Records change in what the law does not read. -/
theorem of_faces (h : GrantsMatch q g x) (hq : ∀ i, (q' i).map face = (q i).map face) : GrantsMatch q' g x := by
  refine ⟨fun i => ids_of_faces (hq i) ▸ h.once i, fun i j hij c hc d hd => ?_, fun i n hn => ?_, fun i c hc hg => ?_, h.single⟩
  · obtain ⟨c', hc', hid, -⟩ := face_mem (hq i).symm hc
    obtain ⟨d', hd', hid', -⟩ := face_mem (hq j).symm hd
    rw [← hid, ← hid']
    exact h.apart i j hij c' hc' d' hd'
  · obtain ⟨c, hc, hid, hst, hex⟩ := h.entry i n hn
    obtain ⟨d, hd, h1, h2, h3⟩ := face_mem (hq i) hc
    exact ⟨d, hd, h1.trans hid, h2.trans hst, by rw [h3, hex]⟩
  · obtain ⟨d, hd, h1, h2, -⟩ := face_mem (hq i).symm hc
    rw [← h1]
    exact h.record i d hd (h2.trans hg)

/-- Movement records end that hold no GRANTED entry. -/
theorem of_exits (h : GrantsMatch q g x) (hx : ∀ i, x' i = x i ∨ g i = []) : GrantsMatch q g x' := by
  refine ⟨h.once, h.apart, fun i n hn => ?_, h.record, h.single⟩
  rcases hx i with e | e
  · rw [e]
    exact h.entry i n hn
  · rw [e] at hn
    cases hn

/-- Records without a grant leave their queues. -/
theorem of_sublists (h : GrantsMatch q g x) (hq : ∀ i, (q' i).Sublist (q i))
    (hk : ∀ i, ∀ c ∈ q i, c.state = .granted → c ∈ q' i) : GrantsMatch q' g x := by
  refine ⟨fun i => (h.once i).sublist ((hq i).map _),
    fun i j hij c hc d hd => h.apart i j hij c ((hq i).subset hc) d ((hq j).subset hd), fun i n hn => ?_,
    fun i c hc => h.record i c ((hq i).subset hc), h.single⟩
  obtain ⟨c, hc, hid, hst, hex⟩ := h.entry i n hn
  exact ⟨c, hk i c hc hst, hid, hst, hex⟩

/-- A carrier loses its grant, and its record is without one or gone. -/
theorem release {id : CarrierId} (h : GrantsMatch q g x) (hg : ∀ i, g' i = (g i).filter (· ≠ id))
    (hx : ∀ i, x' i = x i ∨ g' i = []) (hids : ∀ i, ((q' i).map Carrier.id).Sublist ((q i).map Carrier.id))
    (hkeep : ∀ i, ∀ c ∈ q i, c.id ≠ id → c ∈ q' i)
    (hlost : ∀ i, ∀ c ∈ q' i, c.state = .granted → c.id ≠ id ∧ c ∈ q i) : GrantsMatch q' g' x' := by
  have known : ∀ i, ∀ c ∈ q' i, ∃ d ∈ q i, d.id = c.id := fun i c hc =>
    List.mem_map.mp ((hids i).subset (List.mem_map_of_mem hc))
  refine ⟨fun i => (h.once i).sublist (hids i), fun i j hij c hc d hd => ?_, fun i n hn => ?_, fun i c hc hst => ?_,
    fun i => hg i ▸ (h.single i).filter _⟩
  · obtain ⟨c', hc', hid⟩ := known i c hc
    obtain ⟨d', hd', hid'⟩ := known j d hd
    rw [← hid, ← hid']
    exact h.apart i j hij c' hc' d' hd'
  · have hn' := hn
    rw [hg, List.mem_filter, decide_eq_true_eq] at hn'
    obtain ⟨c, hc, hid, hst, hex⟩ := h.entry i n hn'.1
    refine ⟨c, hkeep i c hc (hid ▸ hn'.2), hid, hst, ?_⟩
    rcases hx i with e | e
    · rw [e, hex]
    · rw [e] at hn
      cases hn
  · obtain ⟨hne, hc'⟩ := hlost i c hc hst
    rw [hg, List.mem_filter, decide_eq_true_eq]
    exact ⟨h.record i c hc' hst, hne⟩

/-- A record without a grant is granted, into a movement record for its exit. -/
theorem join {i : Arm} {c : Carrier} {f : Carrier → Carrier} (h : GrantsMatch q g x) (hc : c ∈ q i)
    (waits : c.state ≠ .granted) (hf : ∀ d : Carrier, (f d).id = d.id ∧ (f d).state = .granted ∧ (f d).exit = d.exit)
    (hq : ∀ j, q' j = if i = j then updateRecord c.id f (q j) else q j)
    (hg : ∀ j, g' j = if i = j then g j ++ [c.id] else g j)
    (hx : ∀ j, x' j = if i = j then some c.exit else x j) (fits : g i = [] ∨ x i = some c.exit) : GrantsMatch q' g' x' := by
  have ids : ∀ j, (q' j).map Carrier.id = (q j).map Carrier.id := fun j => by
    rw [hq]
    split
    · exact updateRecord_ids _ _ (fun d => (hf d).1) _
    · rfl
  have known : ∀ j, ∀ d ∈ q' j, ∃ b ∈ q j, b.id = d.id := fun j d hd =>
    List.mem_map.mp (ids j ▸ List.mem_map_of_mem hd)
  have new : c.id ∉ g i := fun hn => by
    obtain ⟨d, hd, hid, hst, -⟩ := h.entry i c.id hn
    exact waits ((h.eq_of_id hd hc hid).2 ▸ hst)
  refine ⟨fun j => ids j ▸ h.once j, fun j k hjk d hd e he => ?_, fun j n hn => ?_, fun j d hd hst => ?_, fun j => ?_⟩
  · obtain ⟨d', hd', hid⟩ := known j d hd
    obtain ⟨e', he', hid'⟩ := known k e he
    rw [← hid, ← hid']
    exact h.apart j k hjk d' hd' e' he'
  · rw [hg] at hn
    rw [hq, hx]
    by_cases e : i = j
    · subst e
      simp only [if_true, List.mem_append, List.mem_singleton] at hn ⊢
      rcases hn with hn | rfl
      · obtain ⟨d, hd, hid, hst, hex⟩ := h.entry i n hn
        refine ⟨d, mem_updateRecord_other hd fun e => new (e ▸ hid ▸ hn), hid, hst, ?_⟩
        rcases fits with e | e
        · rw [e] at hn
          cases hn
        · rw [← e, hex]
      · obtain ⟨f1, f2, f3⟩ := hf c
        exact ⟨f c, mem_updateRecord.mpr ⟨c, hc, if_pos rfl⟩, f1, f2, by rw [f3]⟩
    · simp only [if_neg e] at hn ⊢
      exact h.entry j n hn
  · rw [hq] at hd
    rw [hg]
    by_cases e : i = j
    · subst e
      simp only [if_true, List.mem_append, List.mem_singleton] at hd ⊢
      obtain ⟨b, hb, rfl⟩ := mem_updateRecord.mp hd
      split
      · next hid => exact .inr ((hf b).1.trans hid)
      · next hid =>
        rw [if_neg hid] at hst
        exact .inl (h.record i b hb hst)
    · simp only [if_neg e] at hd ⊢
      exact h.record j d hd hst
  · rw [hg]
    split
    · next e =>
      subst e
      exact List.nodup_append.mpr ⟨h.single i, List.nodup_singleton _, fun a ha b hb => by
        rw [List.mem_singleton] at hb
        exact fun e => new (hb ▸ e ▸ ha)⟩
    · exact h.single j

/-- A record changes that stays as it is in what the law reads. -/
theorem amend {i : Arm} {id : CarrierId} {f : Carrier → Carrier} (h : GrantsMatch q g x)
    (same : ∀ c : Carrier, (f c).id = c.id) (hf : ∀ c ∈ q i, c.id = id → c.Amends (f c))
    (hq : ∀ j, q' j = if i = j then updateRecord id f (q j) else q j) : GrantsMatch q' g x := by
  have ids : ∀ j, (q' j).map Carrier.id = (q j).map Carrier.id := fun j => by
    rw [hq]
    split
    · exact updateRecord_ids _ _ same _
    · rfl
  have known : ∀ j, ∀ d ∈ q' j, ∃ b ∈ q j, b.id = d.id ∧ (d.state = .granted ↔ b.state = .granted) := fun j d hd => by
    rw [hq] at hd
    split at hd
    · next e =>
      subst e
      obtain ⟨b, hb, rfl⟩ := mem_updateRecord.mp hd
      refine ⟨b, hb, ?_⟩
      split
      · next hid => exact ⟨(same b).symm, (hf b hb hid).1⟩
      · exact ⟨rfl, Iff.rfl⟩
    · exact ⟨d, hd, rfl, Iff.rfl⟩
  refine ⟨fun j => ids j ▸ h.once j, fun j k hjk d hd e he => ?_, fun j n hn => ?_, fun j d hd hst => ?_, h.single⟩
  · obtain ⟨d', hd', hid, -⟩ := known j d hd
    obtain ⟨e', he', hid', -⟩ := known k e he
    rw [← hid, ← hid']
    exact h.apart j k hjk d' hd' e' he'
  · obtain ⟨c, hc, hid, hst, hex⟩ := h.entry j n hn
    rw [hq]
    split
    · next e =>
      subst e
      refine ⟨if c.id = id then f c else c, mem_updateRecord.mpr ⟨c, hc, rfl⟩, ?_⟩
      split
      · next e =>
        obtain ⟨granted, exit⟩ := hf c hc e
        exact ⟨(same c).trans hid, granted.mpr hst, by rw [hex, exit hst]⟩
      · exact ⟨hid, hst, hex⟩
    · exact ⟨c, hc, hid, hst, hex⟩
  · obtain ⟨b, hb, hid, granted⟩ := known j d hd
    rw [← hid]
    exact h.record j b hb (granted.mp hst)

/-- A record without a grant joins a queue, under an ID that none holds. -/
theorem insert {i : Arm} {c : Carrier} (h : GrantsMatch q g x) (waits : c.state ≠ .granted)
    (new : ∀ j, ∀ d ∈ q j, d.id ≠ c.id) (hq : ∀ j, (q' j).Perm (if i = j then c :: q j else q j)) : GrantsMatch q' g x := by
  have mem : ∀ j d, d ∈ q' j ↔ (i = j ∧ d = c) ∨ d ∈ q j := fun j d => by
    rw [(hq j).mem_iff]
    split
    · next e => simp [e]
    · next e => simp [e]
  refine ⟨fun j => ?_, fun j k hjk d hd e he => ?_, fun j n hn => ?_, fun j d hd hst => ?_, h.single⟩
  · rw [((hq j).map Carrier.id).nodup_iff]
    split
    · rw [List.map_cons, List.nodup_cons]
      refine ⟨fun hmem => ?_, h.once j⟩
      obtain ⟨d, hd, hid⟩ := List.mem_map.mp hmem
      exact new j d hd hid
    · exact h.once j
  · rcases (mem j d).mp hd with ⟨rfl, rfl⟩ | hd
    · rcases (mem k e).mp he with ⟨rfl, -⟩ | he
      · exact absurd rfl hjk
      · exact (new k e he).symm
    · rcases (mem k e).mp he with ⟨rfl, rfl⟩ | he
      · exact new j d hd
      · exact h.apart j k hjk d hd e he
  · obtain ⟨d, hd, rest⟩ := h.entry j n hn
    exact ⟨d, (mem j d).mpr (.inr hd), rest⟩
  · rcases (mem j d).mp hd with ⟨-, rfl⟩ | hd
    · exact absurd hst waits
    · exact h.record j d hd hst

end GrantsMatch

end Sys2Proof.Machine

namespace Sys2Proof.Machine

/-! ### Grants of a state -/

theorem grantedOn_congr {s t : State} (h : t.xu.moves = s.xu.moves) : t.grantedOn = s.grantedOn ∧ t.exitOf = s.exitOf := by
  have move : ∀ i, t.move i = s.move i := fun i => by rw [State.move, State.move, h]
  exact ⟨funext fun i => by rw [State.grantedOn, State.grantedOn, move],
    funext fun i => by rw [State.exitOf, State.exitOf, move]⟩

/-- The law of a state whose movement records are those of `s`. -/
theorem GrantLaw.of_match {s t : State} (hs : GrantLaw s) (hm : t.xu.moves = s.xu.moves) (hp : s.part.moves → t.part.moves)
    (h : GrantsMatch t.queue s.grantedOn s.exitOf) : GrantLaw t := by
  obtain ⟨hg, hx⟩ := grantedOn_congr hm
  refine (grantLaw_iff t).mpr ⟨by rw [hg, hx]; exact h, fun i hi => hp (((grantLaw_iff s).mp hs).2 i ?_)⟩
  rwa [State.move, hm] at hi

/-- A change of a queue leaves, of what the law reads, the changed queue. -/
theorem onQueue_faces (i j : Arm) (f : List Carrier → List Carrier) (s : State) :
    ((s.onQueue i f).queue j).map GrantsMatch.face = (if i = j then f (s.queue i) else s.queue j).map GrantsMatch.face := by
  unfold State.onQueue
  dsimp only
  generalize hu : (if headNews (s.queue i) (f (s.queue i)) = true then
    (State.noteDemand s (s.putQueue i (f (s.queue i)))).trigger else State.noteDemand s (s.putQueue i (f (s.queue i)))) = u
  have hq : u.queue j = if i = j then f (s.queue i) else s.queue j := by
    rw [← queue_putQueue]
    subst hu
    split <;> simp [State.queue]
  rw [← hq]
  rcases checkOverdue_cases u with h | h
  · rw [h]
  · rw [h, (endOverdue_does u).2.1 j]
    split
    · rfl
    · split
      · rw [updateRecord, List.map_map]
        refine List.map_congr_left fun c _ => ?_
        rw [Function.comp_apply]
        split <;> rfl
      · rfl

theorem endOverdue_faces (j : Arm) (s : State) :
    (s.endOverdue.queue j).map GrantsMatch.face = (s.queue j).map GrantsMatch.face := by
  rw [(endOverdue_does s).2.1 j]
  split
  · rfl
  · split
    · rw [updateRecord, List.map_map]
      refine List.map_congr_left fun c _ => ?_
      rw [Function.comp_apply]
      split <;> rfl
    · rfl

/-- A change of a queue keeps the grants in match where the changed queue does. -/
theorem grantsMatch_onQueue {i : Arm} {f : List Carrier → List Carrier} {s : State} {g : Arm → List CarrierId}
    {x : Arm → Option Arm} (h : GrantsMatch (fun j => if i = j then f (s.queue i) else s.queue j) g x) :
    GrantsMatch (s.onQueue i f).queue g x :=
  h.of_faces fun j => onQueue_faces i j f s

theorem GrantLaw.onQueue {i : Arm} {f : List Carrier → List Carrier} {s : State} (hs : GrantLaw s)
    (h : GrantsMatch (fun j => if i = j then f (s.queue i) else s.queue j) s.grantedOn s.exitOf) : GrantLaw (s.onQueue i f) :=
  hs.of_match (onQueue_crossing i f s).1 (by simp [State.part]) (grantsMatch_onQueue h)

theorem recordOn_some {s : State} {i : Arm} {id : CarrierId} {c : Carrier} (h : s.recordOn i id = some c) :
    c ∈ s.queue i ∧ c.id = id :=
  ⟨List.mem_of_find?_eq_some h, by simpa using List.find?_some h⟩

theorem recordOn_of_mem {s : State} (hs : GrantLaw s) {i : Arm} {c : Carrier} (hc : c ∈ s.queue i) :
    s.recordOn i c.id = some c := by
  cases h : s.recordOn i c.id with
  | none => exact absurd (List.find?_eq_none.mp h c hc) (by simp)
  | some d =>
    obtain ⟨hd, hid⟩ := recordOn_some h
    rw [(((grantLaw_iff s).mp hs).1.eq_of_id hd hc hid).2]

theorem queuedOn_none {s : State} {id : CarrierId} (h : s.queuedOn id = none) (i : Arm) : ∀ c ∈ s.queue i, c.id ≠ id :=
  fun c hc e => by
  have none' := List.find?_eq_none.mp h i (Arm.mem_list i)
  simp only [State.recordOn, List.find?_isSome, not_exists, not_and] at none'
  exact none' c hc (by simp [e])

theorem insertRecord_perm (c : Carrier) (q : List Carrier) : (insertRecord c q).Perm (c :: q) := by
  induction q with
  | nil => exact .refl _
  | cons h rest ih =>
    unfold insertRecord
    split
    · exact (ih.cons h).trans (.swap c h rest)
    · exact .refl _

/-! ### The withdrawal of a grant -/

theorem grantOf_none {s : State} {id : CarrierId} (h : s.grantOf id = none) (i : Arm) : id ∉ s.grantedOn i := fun hn => by
  obtain ⟨m, hm, e, he, hg, hid⟩ := mem_grantedOn.mp hn
  have none' := List.find?_eq_none.mp h i (Arm.mem_list i)
  simp only [hm, List.any_eq_true, not_exists, not_and] at none'
  exact none' e he (by simp [Entry.grantedTo, hg, hid])

theorem grantedIds_dropGranted (id : CarrierId) (l : List Entry) :
    grantedIds (dropGranted id l) = (grantedIds l).filter (· ≠ id) := by
  rw [grantedIds, grantedIds, dropGranted, List.filter_filter, List.filter_map, List.filter_filter]
  congr 1
  refine List.filter_congr fun e _ => ?_
  by_cases hid : e.id = id <;> simp [Entry.grantedTo, hid]

theorem filter_ne_of_notMem {id : CarrierId} {l : List CarrierId} (h : id ∉ l) : l.filter (· ≠ id) = l :=
  List.filter_eq_self.mpr fun n hn => by
    simp only [ne_eq, decide_not, Bool.not_eq_true', decide_eq_false_iff_not]
    exact fun e => h (e ▸ hn)

/-- The withdrawal of a grant takes its carrier, and no other, from the GRANTED ones; and a movement record that ends holds none
any more. -/
theorem withdrawGrant_grants {s : State} (id : CarrierId) (h : GrantsMatch s.queue s.grantedOn s.exitOf) :
    (∀ j, (s.withdrawGrant id).grantedOn j = (s.grantedOn j).filter (· ≠ id))
    ∧ (∀ j, (s.withdrawGrant id).exitOf j = s.exitOf j ∨ (s.withdrawGrant id).grantedOn j = [])
    ∧ ∀ j, (s.withdrawGrant id).move j ≠ none → s.move j ≠ none := by
  cases hg : s.grantOf id with
  | none =>
    rw [withdrawGrant_none hg]
    exact ⟨fun j => (filter_ne_of_notMem (grantOf_none hg j)).symm, fun _ => .inl rfl, fun _ => fun h => h⟩
  | some i =>
    obtain ⟨m, hm, hany⟩ := move_of_grantOf hg
    obtain ⟨hmv, -⟩ := withdrawGrant_does hg hm
    have here : id ∈ s.grantedOn i := by
      obtain ⟨e, he, hto⟩ := List.any_eq_true.mp hany
      simp only [Entry.grantedTo, Bool.and_eq_true, beq_iff_eq] at hto
      exact mem_grantedOn.mpr ⟨m, hm, e, he, hto.2, hto.1⟩
    have dropped := grantedIds_dropGranted id m.carriers
    have of_other : ∀ j, i ≠ j → (s.withdrawGrant id).move j = s.move j := fun j e => by rw [hmv, if_neg e]
    have of_empty : dropGranted id m.carriers = [] → (s.withdrawGrant id).move i = none := fun e => by
      rw [hmv, if_pos rfl, if_pos e]
    have of_rest : dropGranted id m.carriers ≠ [] →
        (s.withdrawGrant id).move i = some { m with carriers := dropGranted id m.carriers } := fun e => by
      rw [hmv, if_pos rfl, if_neg e]
    have grants : (s.withdrawGrant id).grantedOn i = grantedIds (dropGranted id m.carriers) := by
      by_cases e : dropGranted id m.carriers = []
      · rw [State.grantedOn, of_empty e, e]
        rfl
      · exact grantedOn_of_move (of_rest e)
    refine ⟨fun j => ?_, fun j => ?_, fun j => ?_⟩
    · by_cases e : i = j
      · subst e
        rw [grants, dropped, ← grantedOn_of_move hm]
      · rw [State.grantedOn, of_other j e, ← State.grantedOn]
        refine (filter_ne_of_notMem fun hn => ?_).symm
        obtain ⟨c, hc, hcid, -⟩ := h.entry i id here
        obtain ⟨d, hd, hdid, -⟩ := h.entry j id hn
        exact h.apart i j e c hc d hd (by rw [hcid, hdid])
    · by_cases e : i = j
      · subst e
        by_cases e' : dropGranted id m.carriers = []
        · right
          rw [grants, e']
          rfl
        · left
          rw [State.exitOf, State.exitOf, of_rest e', hm]
          rfl
      · left
        rw [State.exitOf, State.exitOf, of_other j e]
    · by_cases e : i = j
      · subst e
        rw [hm]
        exact fun _ => by simp
      · rw [of_other j e]
        exact fun h => h

/-- A grant withdrawn, and its record without it or gone. -/
theorem grantLaw_withdraw {id : CarrierId} {i : Arm} {f : List Carrier → List Carrier} {s : State} (hs : GrantLaw s)
    (hids : ((f (s.queue i)).map Carrier.id).Sublist ((s.queue i).map Carrier.id))
    (hkeep : ∀ c ∈ s.queue i, c.id ≠ id → c ∈ f (s.queue i))
    (hlost : ∀ c ∈ f (s.queue i), c.state = .granted → c.id ≠ id ∧ c ∈ s.queue i)
    (known : ∃ c ∈ s.queue i, c.id = id) : GrantLaw ((s.withdrawGrant id).onQueue i f) := by
  obtain ⟨hm, hp⟩ := (grantLaw_iff s).mp hs
  obtain ⟨hg, hx, hmv⟩ := withdrawGrant_grants id hm
  have queue : ∀ j, (s.withdrawGrant id).queue j = s.queue j := fun j => by simp [State.queue]
  obtain ⟨b, hb, hbid⟩ := known
  have released : GrantsMatch (fun j => if i = j then f ((s.withdrawGrant id).queue i) else (s.withdrawGrant id).queue j)
      (s.withdrawGrant id).grantedOn (s.withdrawGrant id).exitOf := by
    refine hm.release hg hx (fun j => ?_) (fun j c hc hne => ?_) fun j c hc hst => ?_
    · simp only [queue]
      split
      · next e => exact e ▸ hids
      · exact .refl _
    · simp only [queue]
      split
      · next e => exact hkeep c (e ▸ hc) hne
      · exact hc
    · simp only [queue] at hc
      split at hc
      · next e => exact e ▸ hlost c hc hst
      · next e => exact ⟨fun hid => hm.apart i j e b hb c hc (hbid.trans hid.symm), hc⟩
  obtain ⟨hg', hx'⟩ := grantedOn_congr (onQueue_crossing i f (s.withdrawGrant id)).1
  refine (grantLaw_iff _).mpr ⟨?_, fun j hj => ?_⟩
  · rw [hg', hx']
    exact grantsMatch_onQueue released
  · rw [State.part, (onQueue_keeps i f (s.withdrawGrant id)).1, (withdrawGrant_keeps id s).1]
    refine hp j (hmv j ?_)
    rwa [State.move, (onQueue_crossing i f (s.withdrawGrant id)).1] at hj

theorem grantLaw_unseat {id : CarrierId} {i : Arm} {f : Carrier → Carrier} {s : State} (hs : GrantLaw s)
    (hf : ∀ c : Carrier, c.Unseats (f c)) (known : (s.recordOn i id).isSome) :
    GrantLaw ((s.withdrawGrant id).onRecord i id f) := by
  obtain ⟨b, hb⟩ := Option.isSome_iff_exists.mp known
  refine grantLaw_withdraw hs (by rw [updateRecord_ids _ _ fun c => (hf c).1])
    (fun c hc hne => mem_updateRecord_other hc hne) (fun c hc hst => ?_) ⟨b, recordOn_some hb⟩
  obtain ⟨d, hd, rfl⟩ := mem_updateRecord.mp hc
  split at hst
  · exact absurd hst (hf d).2.2
  · next hne =>
    rw [if_neg hne]
    exact ⟨hne, hd⟩

theorem grantLaw_remove {id : CarrierId} {i : Arm} {s : State} (hs : GrantLaw s) (known : (s.recordOn i id).isSome) :
    GrantLaw ((s.withdrawGrant id).removeRecord i id) := by
  obtain ⟨b, hb⟩ := Option.isSome_iff_exists.mp known
  refine grantLaw_withdraw hs (List.filter_sublist.map _) (fun c hc hne => List.mem_filter.mpr ⟨hc, by simpa using hne⟩)
    (fun c hc _ => ?_) ⟨b, recordOn_some hb⟩
  obtain ⟨hc, hne⟩ := List.mem_filter.mp hc
  exact ⟨by simpa using hne, hc⟩

theorem grantLaw_holdGrants {s : State} (hs : GrantLaw s) : GrantLaw s.holdGrants := by
  have entries : ∀ (i : Arm) (l : List Entry) (u : State), GrantLaw u →
      (∀ e ∈ l, e.status.isGranted = true → e.id ∈ (u.queue i).map Carrier.id) → GrantLaw (l.foldl (State.holdEntryGrant i) u) := by
    intro i l
    induction l with
    | nil => exact fun u hu _ => hu
    | cons e l ih =>
      intro u hu hl
      have ids : (u.holdEntryGrant i e |>.queue i).map Carrier.id = (u.queue i).map Carrier.id := by
        unfold State.holdEntryGrant
        split
        · rw [State.onRecord, onQueue_ids, if_pos rfl, updateRecord_ids _ _ fun c => (toWaiting_unseats c).1]
          simp [State.queue]
        · rfl
      refine ih _ ?_ fun e' he' hg => ids ▸ hl e' (List.mem_cons_of_mem _ he') hg
      unfold State.holdEntryGrant
      split
      · next test =>
        simp only [Bool.and_eq_true] at test
        obtain ⟨c, hc, hid⟩ := List.mem_map.mp (hl e List.mem_cons_self test.1)
        exact grantLaw_unseat hu toWaiting_unseats (by rw [← hid, recordOn_of_mem hu hc]; rfl)
      · exact hu
  have arms : ∀ (l : List Arm) (u : State), GrantLaw u → GrantLaw (l.foldl (fun t i => match t.move i with
      | none => t
      | some m => m.carriers.foldl (State.holdEntryGrant i) t) u) := by
    intro l
    induction l with
    | nil => exact fun u hu => hu
    | cons i l ih =>
      intro u hu
      refine ih _ ?_
      dsimp only
      split
      · exact hu
      · next m hm =>
        refine entries i m.carriers u hu fun e he hg => ?_
        obtain ⟨c, hc, hid, -⟩ := hu.2.2.1 i m hm e he hg
        exact hid ▸ List.mem_map_of_mem hc
  exact arms Arm.list s hs

/-! ### Grants -/

/-- Steps 4 to 6 of a grant, on the state with the entry in its movement record. -/
theorem grantLaw_finishGrant {i : Arm} {c : Carrier} {s u : State} (hs : GrantLaw s) (hu : u.aqu = s.aqu) (hp : u.part = s.part)
    (runs : s.part.moves) (arrival : c.arrival = i) (hc : c ∈ s.queue i) (waits : c.state ≠ .granted)
    (hg : ∀ j, u.grantedOn j = if i = j then s.grantedOn j ++ [c.id] else s.grantedOn j)
    (hx : ∀ j, u.exitOf j = if i = j then some c.exit else s.exitOf j)
    (fits : s.grantedOn i = [] ∨ s.exitOf i = some c.exit) : GrantLaw (u.finishGrant c) := by
  subst arrival
  have joined := ((grantLaw_iff s).mp hs).1.join (f := fun r => { r with state := .granted, skip := 0 })
    (q' := fun j => if c.arrival = j then
      updateRecord c.id (fun r => { r with state := .granted, skip := 0 }) (s.queue c.arrival) else s.queue j)
    hc waits (fun _ => ⟨rfl, rfl, rfl⟩) (fun j => by split <;> simp_all) hg hx fits
  have queue : ∀ j, (u.takeReservation c.exit).queue j = s.queue j := fun j => by simp [State.queue, hu]
  have granted : GrantsMatch ((u.takeReservation c.exit).onRecord c.arrival c.id
      fun r => { r with state := .granted, skip := 0 }).queue u.grantedOn u.exitOf := by
    refine grantsMatch_onQueue ?_
    simpa only [queue] using joined
  have moves : (u.finishGrant c).xu.moves = u.xu.moves := by
    simp [State.finishGrant, State.onRecord, (onQueue_crossing _ _ _).1]
  obtain ⟨hg', hx'⟩ := grantedOn_congr moves
  refine (grantLaw_iff _).mpr ⟨?_, fun j _ => ?_⟩
  · rw [hg', hx']
    convert granted using 1
    funext j
    simp [State.finishGrant, State.queue, clearanceDue_eq]
  · simpa [State.part, (finishGrant_keeps c u).1] using (show u.part.moves from hp ▸ runs)

theorem grantLaw_executeGrant {i : Arm} {c : Carrier} {rescue : Bool} {s : State} (hs : GrantLaw s) (hq : QueueLaw s)
    (head : s.head i = some c) (waits : c.state ≠ .granted) : GrantLaw (s.executeGrant c rescue) := by
  have hc := mem_queue_of_head head
  have arrival := hq.1 i c hc
  unfold State.executeGrant
  split
  · next test =>
    simp only [State.grantExecutable, State.granting, Bool.and_eq_true, beq_iff_eq, Option.isNone_iff_eq_none] at test
    obtain ⟨⟨⟨running, -⟩, free⟩, -⟩ := test
    subst arrival
    have no : s.grantedOn c.arrival = [] := by rw [State.grantedOn, free]; rfl
    refine grantLaw_finishGrant hs rfl rfl (.inl running) rfl hc waits (fun j => ?_) (fun j => ?_) (.inl no)
    · rw [State.grantedOn, move_mapCellsIn, move_setMove]
      split
      · next e =>
        rw [← e, no]
        rfl
      · rfl
    · rw [State.exitOf, move_mapCellsIn, move_setMove]
      split <;> rfl
  · exact hs

theorem grantLaw_executeFollowOn {i : Arm} {c : Carrier} {s : State} (hs : GrantLaw s) (hq : QueueLaw s)
    (head : s.head i = some c) (waits : c.state ≠ .granted) : GrantLaw (s.executeFollowOn c) := by
  have hc := mem_queue_of_head head
  have arrival := hq.1 i c hc
  subst arrival
  unfold State.executeFollowOn
  split
  · exact hs
  · next m hm =>
    split
    · next test =>
      simp only [State.followOnExecutable, State.granting, Bool.and_eq_true, beq_iff_eq] at test
      obtain ⟨⟨⟨running, -⟩, exit⟩, -⟩ := test
      have here : s.exitOf c.arrival = some c.exit := by rw [State.exitOf, hm]; exact congrArg some exit
      refine grantLaw_finishGrant hs rfl rfl (.inl running) rfl hc waits (fun j => ?_) (fun j => ?_) (.inr here)
      · rw [State.grantedOn, move_setMove]
        split
        · next e =>
          rw [← e, grantedOn_of_move hm]
          simp [grantedIds, grantedEntry, EntryStatus.isGranted]
        · rfl
      · rw [State.exitOf, move_setMove]
        split
        · exact congrArg some exit
        · rfl
    · exact hs

/-! ### Entries and exits -/

/-- The first GRANTED entry becomes CROSSING: the others stay GRANTED. -/
theorem grantedIds_enter (cls : Option (Fin 4)) {l : List Entry} {e : Entry}
    (h : l.find? (fun e => e.status.isGranted) = some e) :
    grantedIds l = e.id :: grantedIds (mapFirst (fun e => e.status.isGranted) (Entry.enter cls) l) := by
  induction l with
  | nil => cases h
  | cons a l ih =>
    unfold mapFirst
    cases ha : a.status.isGranted with
    | true =>
      rw [List.find?_cons_of_pos (by simpa using ha)] at h
      cases h
      have entered : (e.enter cls).status.isGranted = false := rfl
      simp [grantedIds, ha, entered]
    | false =>
      rw [List.find?_cons_of_neg (by simpa using ha)] at h
      simpa [grantedIds, ha] using ih h

theorem grantLaw_enter {i : Arm} {m : Movement} {id : CarrierId} {cls : Option (Fin 4)} {s : State} (hs : GrantLaw s)
    (oldest : s.oldestGranted i = some (m, id)) :
    GrantLaw ((s.setMove i (some { m with
      carriers := mapFirst (fun e => e.status.isGranted) (Entry.enter cls) m.carriers })).removeRecord i id) := by
  obtain ⟨hm, e, he, rfl⟩ := oldestGranted_some oldest
  obtain ⟨match', part⟩ := (grantLaw_iff s).mp hs
  have grants := grantedIds_enter cls he
  have single := match'.single i
  rw [grantedOn_of_move hm, grants, List.nodup_cons] at single
  generalize hu : s.setMove i (some { m with
    carriers := mapFirst (fun e => e.status.isGranted) (Entry.enter cls) m.carriers }) = u
  have move : ∀ j, u.move j = if i = j then some { m with
      carriers := mapFirst (fun e => e.status.isGranted) (Entry.enter cls) m.carriers } else s.move j := fun j => by
    rw [← hu, move_setMove]
  have queue : ∀ j, u.queue j = s.queue j := fun j => by rw [← hu]; rfl
  have here : e.id ∈ s.grantedOn i := by rw [grantedOn_of_move hm, grants]; exact List.mem_cons_self
  obtain ⟨b, hb, hbid, -⟩ := match'.entry i e.id here
  have granted : ∀ j, u.grantedOn j = (s.grantedOn j).filter (· ≠ e.id) := fun j => by
    by_cases e' : i = j
    · subst e'
      rw [State.grantedOn, move, if_pos rfl, grantedOn_of_move hm, grants, List.filter_cons_of_neg (by simp)]
      exact (filter_ne_of_notMem single.1).symm
    · rw [State.grantedOn, move, if_neg e', ← State.grantedOn]
      refine (filter_ne_of_notMem fun hn => ?_).symm
      obtain ⟨d, hd, hdid, -⟩ := match'.entry j e.id hn
      exact match'.apart i j e' b hb d hd (by rw [hbid, hdid])
  have exits : ∀ j, u.exitOf j = s.exitOf j := fun j => by
    rw [State.exitOf, State.exitOf, move]
    split
    · next e => rw [← e, hm]; rfl
    · rfl
  have law : GrantsMatch (fun j => if i = j then (u.queue i).filter (fun c => c.id != e.id) else u.queue j)
      u.grantedOn u.exitOf := by
    refine match'.release granted (fun j => .inl (exits j)) (fun j => ?_) (fun j c hc hne => ?_) fun j c hc _ => ?_
    · simp only [queue]
      split
      · next e => exact e ▸ List.filter_sublist.map _
      · exact .refl _
    · simp only [queue]
      split
      · next e => exact List.mem_filter.mpr ⟨e ▸ hc, by simpa using hne⟩
      · exact hc
    · simp only [queue] at hc
      split at hc
      · next e' =>
        obtain ⟨hc, hne⟩ := List.mem_filter.mp hc
        exact ⟨by simpa using hne, e' ▸ hc⟩
      · next e' => exact ⟨fun h => match'.apart i j e' b hb c hc (hbid.trans h.symm), hc⟩
  have moves := (onQueue_crossing i (fun q => q.filter fun c => c.id != e.id) u).1
  obtain ⟨hg, hx⟩ := grantedOn_congr moves
  refine (grantLaw_iff _).mpr ⟨?_, fun j _ => ?_⟩
  · rw [State.removeRecord, hg, hx]
    exact grantsMatch_onQueue law
  · have : (State.removeRecord i e.id u).part = s.part := by rw [← hu]; simp [State.part]
    rw [this]
    exact part i (by rw [hm]; simp)

theorem grantedIds_eraseP (l : List Entry) : grantedIds (l.eraseP Entry.isCrossing) = grantedIds l := by
  induction l with
  | nil => rfl
  | cons a l ih =>
    cases ha : a.status.isGranted with
    | true =>
      rw [List.eraseP_cons_of_neg (by simp [Entry.isCrossing, ha])]
      simpa [grantedIds, ha] using ih
    | false =>
      rw [List.eraseP_cons_of_pos (by simp [Entry.isCrossing, ha])]
      simp [grantedIds, ha]

theorem grantLaw_exitRelease (j : Arm) {s : State} (hs : GrantLaw s) : GrantLaw (s.exitRelease j) := by
  obtain ⟨match', part⟩ := (grantLaw_iff s).mp hs
  cases h : s.exitMove j with
  | none =>
    have moves : (s.exitRelease j).xu.moves = s.xu.moves := by
      unfold State.exitRelease
      simp only [h]
      split <;> simp [State.setUnmatched]
    have queue : (s.exitRelease j).queue = s.queue := funext fun k => by simp [State.queue]
    exact hs.of_match moves (by simp [State.part]) (queue ▸ match')
  | some i =>
    obtain ⟨m, hm, -⟩ := exitMove_some h
    obtain ⟨move, -⟩ := exitRelease_matched h hm
    have queue : (s.exitRelease j).queue = s.queue := funext fun k => by simp [State.queue]
    have rest : ∀ k, i ≠ k → (s.exitRelease j).move k = s.move k := fun k e => by rw [move, if_neg e]
    have erased := grantedIds_eraseP m.carriers
    have granted : (s.exitRelease j).grantedOn = s.grantedOn := funext fun k => by
      by_cases e : i = k
      · subst e
        rw [grantedOn_of_move hm, ← erased, State.grantedOn, move, if_pos rfl]
        split
        · next e => rw [e]; rfl
        · rfl
      · rw [State.grantedOn, rest k e, ← State.grantedOn]
    have exits : ∀ k, (s.exitRelease j).exitOf k = s.exitOf k ∨ s.grantedOn k = [] := fun k => by
      by_cases e : i = k
      · subst e
        rw [State.exitOf, State.exitOf, move, if_pos rfl, hm]
        split
        · next e =>
          right
          rw [grantedOn_of_move hm, ← erased, e]
          rfl
        · exact .inl rfl
      · left
        rw [State.exitOf, State.exitOf, rest k e]
    refine (grantLaw_iff _).mpr ⟨by rw [queue, granted]; exact match'.of_exits exits, fun k _ => ?_⟩
    have : (s.exitRelease j).part = s.part := by simp [State.part]
    rw [this]
    exact part i (by rw [hm]; simp)

theorem grantLaw_of_lists {s t : State} {f : Entry → Entry} (hs : GrantLaw s)
    (hf : ∀ e : Entry, (f e).id = e.id ∧ (f e).status.isGranted = e.status.isGranted)
    (hm : ∀ i, t.move i = s.move i ∨ ∃ m, s.move i = some m ∧ t.move i = some { m with carriers := m.carriers.map f })
    (hq : ∀ i, (t.queue i).map GrantsMatch.face = (s.queue i).map GrantsMatch.face) (hp : t.part = s.part) :
    GrantLaw t := by
  obtain ⟨match', part⟩ := (grantLaw_iff s).mp hs
  have ids : ∀ l : List Entry, grantedIds (l.map f) = grantedIds l := fun l => by
    rw [grantedIds, grantedIds, List.filter_map, List.map_map]
    rw [show (fun e : Entry => e.status.isGranted) ∘ f = fun e => e.status.isGranted from funext fun e => (hf e).2]
    exact List.map_congr_left fun e _ => (hf e).1
  have granted : t.grantedOn = s.grantedOn := funext fun i => by
    rcases hm i with e | ⟨m, hm, e⟩
    · rw [State.grantedOn, e, ← State.grantedOn]
    · rw [grantedOn_of_move hm, grantedOn_of_move e]
      exact ids _
  have exits : t.exitOf = s.exitOf := funext fun i => by
    rcases hm i with e | ⟨m, hm, e⟩
    · rw [State.exitOf, e, ← State.exitOf]
    · rw [State.exitOf, State.exitOf, hm, e]
      rfl
  refine (grantLaw_iff t).mpr ⟨by rw [granted, exits]; exact match'.of_faces hq, fun i hi => hp ▸ part i ?_⟩
  rcases hm i with e | ⟨m, hm, -⟩
  · rwa [← e]
  · rw [hm]
    simp

end Sys2Proof.Machine

namespace Sys2Proof.Machine

theorem updateRecord_faces {id : CarrierId} {f : Carrier → Carrier} (hf : ∀ c, GrantsMatch.face (f c) = GrantsMatch.face c)
    (q : List Carrier) : (updateRecord id f q).map GrantsMatch.face = q.map GrantsMatch.face := by
  rw [updateRecord, List.map_map]
  refine List.map_congr_left fun c _ => ?_
  rw [Function.comp_apply]
  split
  · exact hf c
  · rfl

theorem grantLaw_putRecord {i : Arm} {id : CarrierId} {f : Carrier → Carrier} {s t : State} (hs : GrantLaw s)
    (hf : ∀ c, GrantsMatch.face (f c) = GrantsMatch.face c) (hm : t.xu.moves = s.xu.moves) (hp : t.part = s.part)
    (hq : ∀ j, t.queue j = (s.putQueue i (updateRecord id f (s.queue i))).queue j) : GrantLaw t := by
  refine hs.of_match hm (fun h => hp ▸ h) (((grantLaw_iff s).mp hs).1.of_faces fun j => ?_)
  rw [hq, queue_putQueue]
  split
  · next e => rw [← e, updateRecord_faces hf]
  · rfl

theorem grantLaw_fresh (cause : RestartCause) (osc : Byte) (store : Store) (rst : Bool) (now : Nat) (l : List Instr) :
    GrantLaw (.fresh cause osc store rst now l) := by
  have queue : ∀ i, (State.fresh cause osc store rst now l).queue i = [] := fun i => by
    simp [State.fresh, State.queue, Aqu.initial]
  have move : ∀ i, (State.fresh cause osc store rst now l).move i = none := fun i => by
    simp [State.fresh, State.move, Xu.initial]
  refine ⟨fun i => by simp [queue], fun i j _ c hc => ?_, fun i m hm => ?_, fun i c hc => ?_, fun i m hm => ?_,
    fun i hi => absurd (move i) hi⟩
  · simp [queue] at hc
  · simp [move] at hm
  · simp [queue] at hc
  · simp [move] at hm

/-- Under the law of the queues every act keeps the law of the grants. -/
theorem Act.keeps_grantLaw (g : Bool) (s t : State) (h : Act g s t) (hq : QueueLaw s) (hs : GrantLaw s) : GrantLaw t := by
  have match' := ((grantLaw_iff s).mp hs).1
  cases h with
  | aside h =>
    have queue : t.queue = s.queue := funext fun i => by rw [State.queue, State.queue, h.queues]
    exact hs.of_match h.held.1 h.part (queue ▸ match')
  | amend i id f same amends =>
    refine hs.onQueue (match'.amend (i := i) (id := id) (fun c => (same c).1) (fun c hc hid => ?_) fun j => ?_)
    · exact amends c (hid ▸ recordOn_of_mem hs hc)
    · split <;> simp_all
  | insert i c _ waits new =>
    refine hs.onQueue (match'.insert (i := i) waits (queuedOn_none new) fun j => ?_)
    split
    · next e => exact e ▸ insertRecord_perm c _
    · exact .refl _
  | pass i unmatched =>
    have none' : s.grantedOn i = [] := by
      cases hm : s.move i with
      | none => simp [State.grantedOn, hm]
      | some m =>
        have h := unmatched (((grantLaw_iff s).mp hs).2 i (by simp [hm]))
        simp only [State.oldestGranted, hm, Option.bind_some, Option.map_eq_none_iff, List.find?_eq_none] at h
        rw [grantedOn_of_move hm, grantedIds, List.filter_eq_nil_iff.mpr h]
        rfl
    refine hs.onQueue (match'.of_sublists (fun j => ?_) fun j c hc hg => ?_)
    · split
      · next e => exact e ▸ List.tail_sublist _
      · exact .refl _
    · split
      · next e =>
        have := match'.record j c hc hg
        rw [← e, none'] at this
        cases this
      · exact hc
  | endOverdue =>
    exact hs.of_match (endOverdue_does s).2.2.2.1 (by simp [State.part]) (match'.of_faces fun j => endOverdue_faces j s)
  | unseat i id f known unseats => exact grantLaw_unseat hs unseats known
  | remove i id known => exact grantLaw_remove hs (recordOn_isSome_of_queuedOn known)
  | grant i c rescue _ head waits => exact grantLaw_executeGrant hs hq head waits
  | followOn i c _ head waits => exact grantLaw_executeFollowOn hs hq head waits
  | enter i m id cls oldest => exact grantLaw_enter hs oldest
  | exit j => exact grantLaw_exitRelease j hs
  | holdGrants => exact grantLaw_holdGrants hs
  | raiseSkip id i =>
    unfold State.raiseSkip
    split
    · exact hs
    · split
      · exact grantLaw_putRecord (i := i) (f := Carrier.skipped s.cfg.skipMax) hs (fun _ => rfl) rfl rfl fun _ => rfl
      · exact hs
  | designate i c =>
    refine grantLaw_putRecord (i := c.arrival) (id := c.id) (f := fun r => { r with overdue := true }) hs (fun _ => rfl) ?_ ?_ fun j => ?_
    · simp [State.designate, State.mapCellsIn, State.putQueue]
    · simp [State.part]
    · simp [State.designate, State.mapCellsIn, State.putQueue, State.queue]
  | relist i f same =>
    refine grantLaw_of_lists hs same (fun j => ?_) (fun j => by simp [State.queue]) (by simp [State.part])
    unfold State.mapEntries
    split
    · exact .inl rfl
    · next m hm =>
      rw [move_setMove]
      split
      · next e => exact .inr ⟨m, e ▸ hm, rfl⟩
      · exact .inl rfl
  | tick =>
    refine grantLaw_of_lists (f := Entry.tick) hs (fun e => ⟨rfl, ?_⟩) (fun j => ?_) (fun j => ?_) rfl
    · unfold Entry.tick
      cases e.status <;> rfl
    · rw [move_tick]
      cases s.move j with
      | none => exact .inl rfl
      | some m => exact .inr ⟨m, rfl, rfl⟩
    · rw [queue_tick, List.map_map]
      rfl
  | restart => exact grantLaw_fresh _ _ _ _ _ _

/-- Settles O59: every act keeps both laws, that of the queues being needed for the arm of a granted head. -/
theorem everyStepKeepsTheGrantLaw : Obligations.EveryStepKeepsTheGrantLaw := fun _ _ hq hs h =>
  (step_keeps (I := fun u => QueueLaw u ∧ GrantLaw u)
    (fun g u v hact hu => ⟨hact.keeps_queueLaw g u v hu.1, hact.keeps_grantLaw g u v hu.1 hu.2⟩) (fun _ _ hu => hu)
    ⟨hq, hs⟩ h).2

/-- Settles O55: the laws of a part that has just restarted. -/
theorem lawsHoldAtReset : Obligations.LawsHoldAtReset :=
  ⟨crossingLaw_fresh .., bounded_fresh .., queueLaw_fresh .., grantLaw_fresh ..⟩

/-! ## No grant without RUNNING, unheld -/

/-- No movement record of `t` is new, and none holds a carrier that it did not hold in `s`. -/
def NoMoreMovements (s t : State) : Prop :=
  ∀ i m, t.move i = some m → ∃ n, s.move i = some n ∧ n.exit = m.exit
    ∧ (m.carriers.map Entry.id).Sublist (n.carriers.map Entry.id)

theorem NoMoreMovements.refl (s : State) : NoMoreMovements s s := fun _ m h => ⟨m, h, rfl, .refl _⟩

theorem NoMoreMovements.trans {s t u : State} (h : NoMoreMovements s t) (h' : NoMoreMovements t u) : NoMoreMovements s u :=
  fun i m hm => by
    obtain ⟨n, hn, en, ln⟩ := h' i m hm
    obtain ⟨k, hk, ek, lk⟩ := h i n hn
    exact ⟨k, hk, ek.trans en, ln.trans lk⟩

theorem NoMoreMovements.of_moves {s t : State} (h : t.xu.moves = s.xu.moves) : NoMoreMovements s t := fun i m hm =>
  ⟨m, by rwa [State.move, h] at hm, rfl, .refl _⟩

theorem noMoreMovements_onQueue (i : Arm) (f : List Carrier → List Carrier) (s : State) : NoMoreMovements s (s.onQueue i f) :=
  .of_moves (onQueue_crossing i f s).1

/-- One movement record is left with a part of its list, or ends. -/
theorem NoMoreMovements.of_list {s t : State} {i : Arm} {m : Movement} {l : List Entry} (hm : s.move i = some m)
    (hl : (l.map Entry.id).Sublist (m.carriers.map Entry.id))
    (ht : ∀ j, t.move j = if i = j then (if l = [] then none else some { m with carriers := l }) else s.move j) :
    NoMoreMovements s t := fun j n hn => by
  rw [ht] at hn
  split at hn
  · next e =>
    subst e
    split at hn
    · cases hn
    · cases hn
      exact ⟨m, hm, rfl, hl⟩
  · exact ⟨n, hn, rfl, .refl _⟩

theorem noMoreMovements_setMove {s : State} {i : Arm} {m : Movement} {l : List Entry} (hm : s.move i = some m)
    (hl : l.map Entry.id = m.carriers.map Entry.id) : NoMoreMovements s (s.setMove i (some { m with carriers := l })) :=
  fun j n hn => by
    rw [move_setMove] at hn
    split at hn
    · next e =>
      cases hn
      exact ⟨m, e ▸ hm, rfl, by rw [hl]⟩
    · exact ⟨n, hn, rfl, .refl _⟩

theorem noMoreMovements_withdrawGrant (id : CarrierId) (s : State) : NoMoreMovements s (s.withdrawGrant id) := by
  cases h : s.grantOf id with
  | none =>
    rw [withdrawGrant_none h]
    exact .refl s
  | some i =>
    obtain ⟨m, hm, -⟩ := move_of_grantOf h
    exact .of_list hm (List.filter_sublist.map _) (withdrawGrant_does h hm).1

theorem noMoreMovements_exitRelease (j : Arm) (s : State) : NoMoreMovements s (s.exitRelease j) := by
  cases h : s.exitMove j with
  | none =>
    refine .of_moves ?_
    unfold State.exitRelease
    simp only [h]
    split <;> simp [State.setUnmatched]
  | some i =>
    obtain ⟨m, hm, -⟩ := exitMove_some h
    exact .of_list hm (List.eraseP_sublist.map _) (exitRelease_matched h hm).1

theorem noMoreMovements_foldl {α : Type} {f : State → α → State} (hf : ∀ s a, NoMoreMovements s (f s a)) (l : List α)
    (s : State) : NoMoreMovements s (l.foldl f s) := by
  induction l generalizing s with
  | nil => exact .refl s
  | cons a l ih => exact (hf s a).trans (ih _)

theorem noMoreMovements_holdGrants (s : State) : NoMoreMovements s s.holdGrants := by
  refine noMoreMovements_foldl (fun t i => ?_) _ s
  split
  · exact .refl t
  · refine noMoreMovements_foldl (fun u e => ?_) _ t
    unfold State.holdEntryGrant
    split
    · exact (noMoreMovements_withdrawGrant _ u).trans (noMoreMovements_onQueue _ _ _)
    · exact .refl u

theorem mapFirst_ids {f : Entry → Entry} (hf : ∀ e : Entry, (f e).id = e.id) (p : Entry → Bool) (l : List Entry) :
    (mapFirst p f l).map Entry.id = l.map Entry.id := by
  induction l with
  | nil => rfl
  | cons e l ih =>
    unfold mapFirst
    split <;> simp [hf, ih]

/-- Without a grant no act makes a movement record or lets a carrier join one. -/
theorem Act.noMoreMovements {s t : State} (h : Act false s t) : NoMoreMovements s t := by
  cases h with
  | aside h => exact .of_moves h.held.1
  | amend i id f => exact noMoreMovements_onQueue _ _ s
  | insert i c => exact noMoreMovements_onQueue _ _ s
  | pass i => exact noMoreMovements_onQueue _ _ s
  | endOverdue => exact .of_moves (endOverdue_does s).2.2.2.1
  | unseat i id f => exact (noMoreMovements_withdrawGrant _ s).trans (noMoreMovements_onQueue _ _ _)
  | remove i id => exact (noMoreMovements_withdrawGrant _ s).trans (noMoreMovements_onQueue _ _ _)
  | grant i c rescue grants => cases grants
  | followOn i c grants => cases grants
  | enter i m id cls oldest =>
    exact (noMoreMovements_setMove (oldestGranted_some oldest).1 (mapFirst_ids (by exact fun _ => rfl) _ _)).trans
      (noMoreMovements_onQueue _ _ _)
  | exit j => exact noMoreMovements_exitRelease j s
  | holdGrants => exact noMoreMovements_holdGrants s
  | raiseSkip id i => exact .of_moves (by simp)
  | designate i c => exact .of_moves (by simp [State.designate, State.mapCellsIn, State.putQueue])
  | relist i f same =>
    unfold State.mapEntries
    split
    · exact .refl s
    · next m hm =>
      refine noMoreMovements_setMove hm ?_
      rw [List.map_map]
      exact List.map_congr_left fun e _ => (same e).1
  | tick =>
    intro i m h
    rw [move_tick] at h
    obtain ⟨n, hn, rfl⟩ := Option.map_eq_some_iff.mp h
    refine ⟨n, hn, rfl, ?_⟩
    simp [Movement.tick, Function.comp_def, Entry.tick]
  | restart =>
    intro i m h
    simp [State.fresh, State.move, Xu.initial] at h

/-- Settles O60: while the part does not grant, a command is a chain of acts without a grant. -/
theorem noGrantWithoutRunningUnheld : Obligations.NoGrantWithoutRunningUnheld := fun c s t hg h =>
  Acts.keeps (I := NoMoreMovements s) (fun _ _ hact hu => hu.trans hact.noMoreMovements) (hg ▸ exec_acts c s t h) (.refl s)

end Sys2Proof.Machine

/-! ## The step, restarts and reset -/

namespace Sys2Proof.Machine

/-- Settles O1: `step` reads the front of the queue. -/
theorem stepTakesTheFrontCommand : Obligations.StepTakesTheFrontCommand := fun _ _ _ => rfl

/-- Settles O4: a restart is `State.fresh`, given what it does not return; where RST_N is not asserted its level stays so. -/
theorem restartsReturnEveryBlock : Obligations.RestartsReturnEveryBlock := by
  intro s
  refine ⟨rfl, fun released => ⟨?_, ?_, fun image writing => ?_⟩⟩
  · show Host.Outcome.next (s.plainEvent _) = _
    rw [plainEvent_of_released released]
    rfl
  · show Host.Outcome.next (s.plainEvent _) = _
    rw [plainEvent_of_released released, State.restart, released]
  · show Host.Outcome.next (s.plainEvent _) = _
    rw [plainEvent_of_released released, writing]
    show Host.Outcome.next (State.fresh _ _ _ s.scu.rstHeld _ _) = _
    rw [released]
    rfl

/-- Settles O5: the fields of `State.fresh`, read one by one. -/
theorem restartValues : Obligations.RestartValues := by
  refine ⟨rfl, fun cause osc store rst now pending => ?_⟩
  have arms : ∀ i, Image.default.arms.get i = Image.defaultArm := by decide
  simp only [State.fresh, State.queue, State.closed, State.cell, State.move, State.seg, State.nbr, State.hasNeighbour,
    State.present, State.arm, State.cfg, State.heldValid, State.held, State.attention, State.firstPending, State.enabledFlags,
    Scu.initial, Aqu.initial, Xu.initial, Jar.initial, Fli.initial, Wkp.initial, Hld.initial, Mtp.initial, SegEnd.initial,
    Neighbour.initial, Transmitter.initial, Receiver.initial, LinkReceiver.initial, Filter.initial, Debounce.initial,
    Quad.get_fill, arms, Image.defaultArm, Jar.armOrder]
  simp

/-- Settles O6: the wrapper of every command but two takes nothing while RST_N is asserted. -/
theorem rstNHoldsThePart : Obligations.RstNHoldsThePart := by
  have untaken : ∀ s t : State, s.scu.rstHeld = true →
      Host.Outcome.next (if s.scu.rstHeld then s else t) = (.next s : Host.Outcome State Fault Refusal) :=
    fun s t held => by rw [if_pos held]
  refine ⟨fun c s held notOn notDeassert => ?_, fun _ => rfl⟩
  cases c with
  | powerOn => exact absurd rfl notOn
  | rstNDeassert => exact absurd rfl notDeassert
  | _ => exact untaken s _ held

end Sys2Proof.Machine

namespace Sys2Proof.Machine

/-! ### What the part owes -/

theorem Timer.reached_iff {ms : Nat} {t : Timer} : t.reached ms = true ↔ ∃ n, t = .running n ∧ ms ≤ n := by
  cases t <;> simp [Timer.reached]

theorem owedIf_some {p : Bool} {c d : Instr} : owedIf p c = some d ↔ p = true ∧ c = d := by
  cases p <;> simp [owedIf]

theorem owedIf_none {p : Bool} {c : Instr} : owedIf p c = none ↔ p = false := by
  cases p <;> simp [owedIf]

theorem owedArm_some {p : Arm → Bool} {c : Arm → Instr} {d : Instr} (h : owedArm p c = some d) :
    ∃ i, p i = true ∧ c i = d := by
  obtain ⟨i, hi, hd⟩ := Option.map_eq_some_iff.mp h
  exact ⟨i, List.find?_some hi, hd⟩

theorem owedArm_none {p : Arm → Bool} {c : Arm → Instr} (h : owedArm p c = none) (i : Arm) : p i = false := by
  simpa using List.find?_eq_none.mp (Option.map_eq_none_iff.mp h) i (Arm.mem_list i)

theorem findRecord_some {s : State} {p : Carrier → Bool} {id : CarrierId} (h : s.findRecord p = some id) :
    ∃ i, ∃ r ∈ s.queue i, r.id = id ∧ p r = true := by
  obtain ⟨i, -, h⟩ := List.exists_of_findSome?_eq_some h
  obtain ⟨r, hr, rfl⟩ := Option.map_eq_some_iff.mp h
  exact ⟨i, r, List.mem_of_find?_eq_some hr, rfl, List.find?_some hr⟩

theorem findRecord_none {s : State} {p : Carrier → Bool} (h : s.findRecord p = none) (i : Arm) :
    ∀ r ∈ s.queue i, p r = false := fun r hr => by
  simpa using List.find?_eq_none.mp (Option.map_eq_none_iff.mp (List.findSome?_eq_none_iff.mp h i (Arm.mem_list i))) r hr

theorem findEntry_some {s : State} {p : Entry → Bool} {id : CarrierId} (h : s.findEntry p = some id) :
    ∃ i m e, s.move i = some m ∧ e ∈ m.carriers ∧ e.id = id ∧ p e = true := by
  obtain ⟨i, -, h⟩ := List.exists_of_findSome?_eq_some h
  obtain ⟨m, hm, h⟩ := Option.bind_eq_some_iff.mp h
  obtain ⟨e, he, rfl⟩ := Option.map_eq_some_iff.mp h
  exact ⟨i, m, e, hm, List.mem_of_find?_eq_some he, rfl, List.find?_some he⟩

theorem findEntry_none {s : State} {p : Entry → Bool} (h : s.findEntry p = none) {i : Arm} {m : Movement}
    (hm : s.move i = some m) : ∀ e ∈ m.carriers, p e = false := fun e he => by
  have := List.findSome?_eq_none_iff.mp h i (Arm.mem_list i)
  rw [hm] at this
  simpa using List.find?_eq_none.mp (Option.map_eq_none_iff.mp this) e he

theorem startOver_iff {ms : Nat} {e : Entry} :
    e.startOver ms = true ↔ ∃ start deferred, e.status = .granted start deferred ∧ ∃ n, start = .running n ∧ ms ≤ n := by
  unfold Entry.startOver
  cases e.status with
  | granted start deferred =>
    refine Timer.reached_iff.trans ⟨fun h => ⟨_, _, rfl, h⟩, ?_⟩
    rintro ⟨_, _, ⟨⟩, h⟩
    exact h
  | crossing clear stalled => simp

theorem clearOver_iff {ms : Nat} {e : Entry} :
    e.clearOver ms = true ↔ ∃ clear stalled, e.status = .crossing clear stalled ∧ ∃ n, clear = .running n ∧ ms ≤ n := by
  unfold Entry.clearOver
  cases e.status with
  | granted start deferred => simp
  | crossing clear stalled =>
    refine Timer.reached_iff.trans ⟨fun h => ⟨_, _, rfl, h⟩, ?_⟩
    rintro ⟨_, _, ⟨⟩, h⟩
    exact h

theorem filterTurns_iff {s : State} {input : Input} : s.filterTurns input = true ↔
    s.runsFilter input = true ∧ ∃ n, (s.debounce input).timer = .running n ∧ s.cfg.debounce ≤ n := by
  simp [State.filterTurns, Timer.reached_iff]

theorem Input.mem_list (input : Input) : input ∈ Input.list := by
  cases input <;> simp [Input.list]

theorem fallsSilent_iff {s : State} {i : Arm} : s.fallsSilent i = true ↔
    s.part.working = true ∧ s.hasNeighbour i = true ∧ silenceWindow s.cfg ≤ (s.nbr i).silence
      ∧ ((s.nbr i).state = .live ∨ ((s.nbr i).state = .awaited ∧ (s.nbr i).late = false)) := by
  unfold State.fallsSilent
  cases (s.nbr i).state <;> simp [and_assoc]

theorem backoffOver_iff {s : State} : s.backoffOver = true ↔
    ∃ ms, s.fli.tx.backoff = .running ms ∧ s.fli.tx.backoffBits * bitTime s.cfg ≤ 1000 * ms := by
  unfold State.backoffOver
  cases s.fli.tx.backoff <;> simp

/-- The items of a send list by the front one of the first list that holds any. -/
theorem owedItem_some {s : State} {c : Instr} (h : (Arm.list.findSome? fun i => match s.aqu.sends.get i with
      | [] => none
      | .clearance _ :: _ => some (.sendClearance i)
      | .refusal _ _ :: _ => some (.sendRefusal i)) = some c) :
    (∃ i, c = .sendClearance i ∧ ∃ id rest, s.aqu.sends.get i = .clearance id :: rest)
    ∨ ∃ i, c = .sendRefusal i ∧ ∃ id reason rest, s.aqu.sends.get i = .refusal id reason :: rest := by
  obtain ⟨i, -, h⟩ := List.exists_of_findSome?_eq_some h
  split at h
  · cases h
  · next id rest hl => exact .inl ⟨i, (Option.some.inj h).symm, id, rest, hl⟩
  · next id reason rest hl => exact .inr ⟨i, (Option.some.inj h).symm, id, reason, rest, hl⟩

theorem owedItem_none {s : State} (h : (Arm.list.findSome? fun i => match s.aqu.sends.get i with
      | [] => none
      | .clearance _ :: _ => some (Instr.sendClearance i)
      | .refusal _ _ :: _ => some (.sendRefusal i)) = none) (i : Arm) : s.aqu.sends.get i = [] := by
  have := List.findSome?_eq_none_iff.mp h i (Arm.mem_list i)
  split at this
  · next e => exact e
  · cases this
  · cases this

/-- What is owed is on the lists of what the part owes. -/
theorem owed_some {s : State} {c : Instr} (h : s.owed = some c) :
    some c ∈ s.owedNow ∨ some c ∈ s.owedJunction ∨ some c ∈ s.owedLine := by
  unfold State.owed at h
  split at h
  · cases h
  · obtain ⟨o, ho, rfl⟩ := List.exists_of_findSome?_eq_some h
    simpa only [List.mem_append, or_assoc] using ho

theorem owed_none {s : State} (released : s.scu.rstHeld = false) (h : s.owed = none) :
    (∀ o ∈ s.owedNow, o = none) ∧ (∀ o ∈ s.owedJunction, o = none) ∧ ∀ o ∈ s.owedLine, o = none := by
  unfold State.owed at h
  rw [released] at h
  simp only [Bool.false_eq_true, if_false, List.findSome?_append, Option.or_eq_none_iff, List.findSome?_eq_none_iff, id] at h
  exact ⟨h.1.1, h.1.2, h.2⟩

/-! ### No command stops, and none touches the queue -/

theorem exec_answers (c : Instr) (s : State) : ∃ t, exec c s = .next t := by cases c <;> exact ⟨_, rfl⟩

theorem Act.keeps_pending {g : Bool} {s t : State} (h : Act g s t) : t.pending = s.pending := by
  cases h with
  | aside h => exact h.pending
  | enter i m id cls => simp
  | tick => rfl
  | restart => rfl
  | _ => simp

theorem exec_pending {c : Instr} {s t : State} (h : exec c s = .next t) : t.pending = s.pending :=
  Acts.keeps (I := fun u => u.pending = s.pending) (fun _ _ hact hu => hact.keeps_pending.trans hu) (exec_acts c s t h) rfl

/-- Settles O2: what is owed stands on one of the three lists, and each item of a list is its event's condition. -/
theorem noCommandStopsAndAnIdleStepGoesOn : Obligations.NoCommandStopsAndAnIdleStepGoesOn := by
  refine ⟨fun c s => ?_, fun s empty => ⟨fun c hc => ?_, fun hn => ?_⟩, fun s => ⟨fun held => ?_, fun c hc => ?_,
    fun released hn c => ?_⟩, fun s => ?_⟩
  · obtain ⟨t, ht⟩ := exec_answers c s
    exact ⟨t, ht, exec_pending ht⟩
  · simp only [step, empty, stepIdle, hc]
  · simp only [step, empty, stepIdle, hn]
  · exact if_pos held
  · rcases owed_some hc with h | h | h
    · simp only [State.owedNow, List.mem_cons, List.not_mem_nil, or_false] at h
      rcases h with h | h | h | h | h
      · obtain ⟨hp, rfl⟩ := owedIf_some.mp h.symm
        simpa using hp
      · split at h
        · next working =>
          obtain ⟨f, hf, rfl⟩ := Option.map_eq_some_iff.mp h.symm
          cases f <;> exact ⟨working, hf⟩
        · cases h
      · split at h
        · cases h
        · next r hr =>
          cases h
          exact ⟨r, hr⟩
        · cases h
      · rcases owedItem_some h.symm with ⟨i, rfl, item⟩ | ⟨i, rfl, item⟩
        · exact item
        · exact item
      · obtain ⟨hp, rfl⟩ := owedIf_some.mp h.symm
        simpa [State.lineIdle, and_assoc, Option.isSome_iff_ne_none] using hp
    · simp only [State.owedJunction, List.mem_cons, List.not_mem_nil, or_false] at h
      rcases h with h | h | h | h | h | h | h | h | h | h
      · obtain ⟨input, turns, rfl⟩ := Option.map_eq_some_iff.mp h.symm
        exact filterTurns_iff.mp (List.find?_some turns)
      · obtain ⟨id, found, rfl⟩ := Option.map_eq_some_iff.mp h.symm
        obtain ⟨i, r, hr, hid, hp⟩ := findRecord_some found
        simp only [Bool.and_eq_true, Bool.not_eq_true', decide_eq_true_eq] at hp
        exact ⟨i, r, hr, hid, hp⟩
      · obtain ⟨id, found, rfl⟩ := Option.map_eq_some_iff.mp h.symm
        obtain ⟨i, m, e, hm, he, hid, hp⟩ := findEntry_some found
        obtain ⟨start, deferred, hs, hn⟩ := startOver_iff.mp hp
        exact ⟨i, m, e, start, deferred, hm, he, hid, hs, hn⟩
      · obtain ⟨id, found, rfl⟩ := Option.map_eq_some_iff.mp h.symm
        obtain ⟨i, m, e, hm, he, hid, hp⟩ := findEntry_some found
        obtain ⟨clear, stalled, hs, hn⟩ := clearOver_iff.mp hp
        exact ⟨i, m, e, clear, stalled, hm, he, hid, hs, hn⟩
      · obtain ⟨i, hp, rfl⟩ := owedArm_some h.symm
        exact Timer.reached_iff.mp hp
      · obtain ⟨i, hp, rfl⟩ := owedArm_some h.symm
        exact Timer.reached_iff.mp hp
      · obtain ⟨hp, rfl⟩ := owedIf_some.mp h.symm
        exact Timer.reached_iff.mp hp
      · obtain ⟨i, hp, rfl⟩ := owedArm_some h.symm
        exact Timer.reached_iff.mp hp
      · obtain ⟨i, hp, rfl⟩ := owedArm_some h.symm
        exact Timer.reached_iff.mp hp
      · obtain ⟨hp, rfl⟩ := owedIf_some.mp h.symm
        exact Timer.reached_iff.mp hp
    · simp only [State.owedLine, List.mem_cons, List.not_mem_nil, or_false] at h
      rcases h with h | h | h | h | h | h | h | h | h | h | h
      · obtain ⟨i, hp, rfl⟩ := owedArm_some h.symm
        exact fallsSilent_iff.mp hp
      all_goals
        obtain ⟨hp, rfl⟩ := owedIf_some.mp h.symm
        simp only [Bool.and_eq_true, beq_iff_eq, bne_iff_ne, Bool.not_eq_true', Timer.reached_iff, backoffOver_iff] at hp
        exact hp
  · obtain ⟨now, junction, line⟩ := owed_none released hn
    simp only [State.owedNow, State.owedJunction, State.owedLine, List.forall_mem_cons, List.not_mem_nil,
      Option.map_eq_none_iff] at now junction line
    obtain ⟨round, good, response, items, attempt, -⟩ := now
    obtain ⟨filter, mute, start, clear, ent, ext, box, hold, quiet, settle, -⟩ := junction
    obtain ⟨silent, listening, crossing, recheck, backoff, periodic, spacing, fault, interval, blocked, opening, -⟩ := line
    cases c with
    | arbitrationRound =>
      have := owedIf_none.mp round
      simpa using this
    | floorReportReceived f own =>
      rintro ⟨working, head⟩
      simp [working, head] at good
    | reportRequestReceived f own =>
      rintro ⟨working, head⟩
      simp [working, head] at good
    | responseReady =>
      rintro ⟨r, busy⟩
      simp [busy] at response
    | sendClearance i =>
      rintro ⟨id, rest, list⟩
      exact absurd (owedItem_none items i) (by simp [list])
    | sendRefusal i =>
      rintro ⟨id, reason, rest, list⟩
      exact absurd (owedItem_none items i) (by simp [list])
    | attemptStart =>
      rintro ⟨waiting, kind, idle⟩
      have := owedIf_none.mp attempt
      simp [waiting, kind, State.lineIdle, idle] at this
    | detectorFilterChange input =>
      exact fun due => List.find?_eq_none.mp filter input (Input.mem_list input) (filterTurns_iff.mpr due)
    | carrierMute id =>
      rintro ⟨i, r, hr, -, sound, long⟩
      have := findRecord_none mute i r hr
      simp [sound, long] at this
    | startWindowExpiry id =>
      rintro ⟨i, m, e, st, deferred, hm, he, -, hs, ran⟩
      exact absurd (startOver_iff.mpr ⟨st, deferred, hs, ran⟩) (by simp [findEntry_none start hm e he])
    | crossingStall id =>
      rintro ⟨i, m, e, cl, stalled, hm, he, -, hs, ran⟩
      exact absurd (clearOver_iff.mpr ⟨cl, stalled, hs, ran⟩) (by simp [findEntry_none clear hm e he])
    | detectorFault input =>
      cases input with
      | ent i => exact fun ran => absurd (Timer.reached_iff.mpr ran) (by simp [owedArm_none ent i])
      | ext j => exact fun ran => absurd (Timer.reached_iff.mpr ran) (by simp [owedArm_none ext j])
      | box => exact fun ran => absurd (Timer.reached_iff.mpr ran) (by simp [owedIf_none.mp box])
      | button => exact id
    | holdTimerExpiry i => exact fun ran => absurd (Timer.reached_iff.mpr ran) (by simp [owedArm_none hold i])
    | quietProof i => exact fun ran => absurd (Timer.reached_iff.mpr ran) (by simp [owedArm_none quiet i])
    | settleTimerExpiry => exact fun ran => absurd (Timer.reached_iff.mpr ran) (by simp [owedIf_none.mp settle])
    | neighbourSilent i => exact fun due => absurd (fallsSilent_iff.mpr due) (by simp [owedArm_none silent i])
    | listeningWindowExpiry =>
      rintro ⟨part, ran⟩
      have ran : s.scu.listening.reached (silenceWindow s.cfg) = true := Timer.reached_iff.mpr ran
      have := owedIf_none.mp listening
      simp [part, ran] at this
    | crossingQuietExpiry =>
      rintro ⟨part, ran⟩
      have := owedIf_none.mp crossing
      simp [part, Timer.reached_iff.mpr ran] at this
    | recheckExpiry => exact fun ran => absurd (Timer.reached_iff.mpr ran) (by simp [owedIf_none.mp recheck])
    | backoffExpiry =>
      rintro ⟨state, ran⟩
      have := owedIf_none.mp backoff
      simp [state, backoffOver_iff.mpr ran] at this
    | periodicTimerExpiry => exact fun ran => absurd (Timer.reached_iff.mpr ran) (by simp [owedIf_none.mp periodic])
    | spacingElapsed => exact fun ran => absurd (Timer.reached_iff.mpr ran) (by simp [owedIf_none.mp spacing])
    | lineFault =>
      rintro ⟨quiet, ran⟩
      have ran : s.fli.tx.lineFault.reached (silenceWindow s.cfg / 2) = true := Timer.reached_iff.mpr ran
      have := owedIf_none.mp fault
      simp [quiet, ran] at this
    | intervalExpiry =>
      rintro ⟨mode, ran⟩
      have := owedIf_none.mp interval
      simp [mode, Timer.reached_iff.mpr ran] at this
    | walkwayBlocked =>
      rintro ⟨state, ran⟩
      have := owedIf_none.mp blocked
      simp [state, Timer.reached_iff.mpr ran] at this
    | openTimerExpiry =>
      rintro ⟨state, ran⟩
      have := owedIf_none.mp opening
      simp [state, Timer.reached_iff.mpr ran] at this
    | _ => exact id
  · have nbrs : s.tick.nbrs = .build fun i =>
        { s.nbr i with silence := if s.part.working = true then min 65535 ((s.nbr i).silence + 1) else (s.nbr i).silence } := by
      refine Quad.ext_get fun i => ?_
      by_cases working : s.part.working = true
      · simp [State.tick, working, Neighbour.tick, State.nbr]
      · simp [State.tick, working, State.nbr]
    exact congrArg (fun n => { s.tick with nbrs := n }) nbrs

end Sys2Proof.Machine

namespace Sys2Proof.Machine

/-! ### The end of an event -/

/-- The state of an event's own effect, with the round and the change report that the comparison with the state before it
makes due (R97, R119). -/
def State.noted (old u : State) : State :=
  { u with
    jar := { u.jar with due := u.jar.due || (u.granting && State.admissionOpened old u) }
    fli := { u.fli with tx := { u.fli.tx with changeWaiting := u.fli.tx.changeWaiting || State.reportChanged old u } } }

/-- The end of an event compares with the state of the event's own effect, whatever falls due of it. -/
theorem finish_noted (old u : State) :
    State.finish old u = ((State.settleQuiet old (State.noted old u)).releaseTest).pokeReport := by
  have triggered : (if State.admissionOpened old u then u.trigger else u)
      = { u with jar := { u.jar with due := u.jar.due || (u.granting && State.admissionOpened old u) } } := by
    cases hg : u.granting <;> cases ha : State.admissionOpened old u <;> simp [State.trigger, hg]
  unfold State.finish
  simp only [triggered]
  congr 3
  have same : State.reportChanged old { u with jar := { u.jar with due := u.jar.due || (u.granting && State.admissionOpened old u) } }
      = State.reportChanged old u := rfl
  rw [same]
  cases hr : State.reportChanged old u <;> simp [State.noted, State.scheduleChange, hr]

theorem finish_due (old u : State) :
    (State.finish old u).jar.due = (u.jar.due || (u.granting && State.admissionOpened old u)) := by
  simp [finish_noted, State.noted]

/-- The release test asks for nothing that the comparison or the quiet timers change. -/
theorem finish_hld (old u : State) : (State.finish old u).hld = u.releaseTest.hld := by
  have same : ∀ v : State, v.hld = u.hld → v.part = u.part → v.releasable = u.releasable → v.releaseTest.hld = u.releaseTest.hld := by
    intro v hh hp hr
    unfold State.releaseTest State.heldForCarrier
    rw [hh, hp, hr]
    repeat' split
    all_goals simp [State.modHld, hh]
  rw [finish_noted]
  have settled : State.settleQuiet old (State.noted old u)
      = { State.noted old u with segs := (State.settleQuiet old (State.noted old u)).segs } := by
    unfold State.settleQuiet
    split <;> rfl
  rw [(pokeReport_keeps _).2.2.2.2.2.2.2.2.1, settled]
  exact same _ rfl rfl rfl

theorem releasable_iff (s : State) : s.releasable = true ↔
    s.xu.unmatched = [] ∧ (∀ i h, s.head i = some h → h.state = .granted ∨ h.committed s.cfg = false)
      ∧ (s.cfg.boxFitted = false ∨ s.xu.box.level = false) := by
  have head (i : Arm) : s.headRuns i = false ↔ ∀ h, s.head i = some h → h.state = .granted ∨ h.committed s.cfg = false := by
    unfold State.headRuns
    cases s.head i with
    | none => simp
    | some h => cases hs : h.state <;> simp [hs]
  simp only [State.releasable, State.boxIdle, Bool.and_eq_true, List.isEmpty_iff, Bool.not_eq_true', List.any_eq_false,
    Bool.not_eq_true, Arm.mem_list, forall_const, head, Bool.or_eq_true, and_assoc]

theorem releaseTest_hld_of_not {s : State} (h : ¬ (s.heldForCarrier = true ∧ s.part = .running)) :
    s.releaseTest.hld = s.hld := by
  unfold State.releaseTest
  rw [if_neg (by simpa using h)]

theorem releaseTest_settle {s : State} (held : s.heldForCarrier = true) (running : s.part = .running) :
    s.releaseTest.hld.settle = if s.releasable then (if s.hld.settle.isRunning then s.hld.settle else .running 0)
      else .stopped := by
  unfold State.releaseTest
  rw [if_pos (by simp [held, running])]
  repeat' split
  all_goals simp_all [State.modHld]

theorem settleQuiet_quiet (old s : State) (i : Arm) : ((State.settleQuiet old s).seg i).quiet =
    if old.part.working = true ∧ s.part.working = true ∧ s.provesQuiet i = true then quietAfter (old.seg i) (s.seg i)
    else (s.seg i).quiet := by
  unfold State.settleQuiet
  by_cases hw : old.part.working = true ∧ s.part.working = true
  · rw [if_pos (by simpa using hw)]
    by_cases hp : s.provesQuiet i = true
    · simp [State.seg, hw, hp]
    · simp [State.seg, hw, hp]
  · rw [if_neg (by simpa using hw), if_neg fun h => hw ⟨h.1, h.2.1⟩]

theorem finish_quiet (old u : State) (i : Arm) : ((State.finish old u).seg i).quiet =
    if old.part.working = true ∧ u.part.working = true ∧ u.provesQuiet i = true then quietAfter (old.seg i) (u.seg i)
    else (u.seg i).quiet := by
  have kept : (State.finish old u).seg i = (State.settleQuiet old (State.noted old u)).seg i := by
    simp [finish_noted, State.seg]
  rw [kept, settleQuiet_quiet]
  rfl

theorem finish_changeWaiting (old u : State) :
    (State.finish old u).fli.tx.changeWaiting = (u.fli.tx.changeWaiting || State.reportChanged old u) := by
  rw [finish_noted, pokeReport_tx]
  simp [State.noted]

/-- A report falls due where the change waiting flag, as the event's end leaves it, finds the transmitter free. -/
theorem finish_tx (old u : State) : (State.finish old u).fli.tx =
    if (State.finish old u).fli.tx.changeWaiting = true ∧ u.part.reporting = true ∧ u.fli.tx.state = .idle
        ∧ u.fli.tx.spacing = .expired then
      { u.fli.tx with changeWaiting := (State.finish old u).fli.tx.changeWaiting, state := .waiting, pending := some .report, attempts := 1 }
    else { u.fli.tx with changeWaiting := (State.finish old u).fli.tx.changeWaiting } := by
  rw [finish_changeWaiting, finish_noted]
  have settled : ((State.settleQuiet old (State.noted old u)).releaseTest).fli.tx
      = { u.fli.tx with changeWaiting := u.fli.tx.changeWaiting || State.reportChanged old u } := by
    simp [State.noted]
  unfold State.pokeReport
  rw [settled]
  simp only [Bool.and_eq_true, beq_iff_eq, and_assoc]
  have part : ((State.settleQuiet old (State.noted old u)).releaseTest).part = u.part := by
    simp [State.part, State.noted]
  rw [part]
  split
  · simp only [State.reportDue, State.modTx]
    rw [settled]
  · exact settled

theorem reportChanged_iff (old s : State) : State.reportChanged old s = true ↔
    old.part.working = true ∧ s.part.working = true
      ∧ (old.part ≠ s.part ∨ old.beacon ≠ s.beacon ∨ ∃ i, s.present i = true
        ∧ ((old.seg i).e ≠ (s.seg i).e ∨ (old.seg i).x ≠ (s.seg i).x ∨ (old.seg i).r ≠ (s.seg i).r
          ∨ (old.seg i).dir ≠ (s.seg i).dir ∨ (s.hasNeighbour i = true ∧ old.reportEntry i ≠ s.reportEntry i))) := by
  have counts (g h : SegEnd) : g.counts ≠ h.counts ↔ g.e ≠ h.e ∨ g.x ≠ h.x ∨ g.r ≠ h.r ∨ g.dir ≠ h.dir := by
    simp only [SegEnd.counts, ne_eq, Prod.mk.injEq, not_and_or]
  simp only [State.reportChanged, Bool.and_eq_true, Bool.or_eq_true, bne_iff_ne, List.any_eq_true, Arm.mem_list, true_and,
    counts, and_assoc, or_assoc]

/-- Settles O3. -/
theorem endOfEvent : Obligations.EndOfEvent := by
  intro old u
  refine ⟨finish_eventEnd old u, finish_due old u, fun held running => ?_, fun idle => ?_, ?_, fun i => ?_⟩
  · rw [finish_hld, releaseTest_settle held running]
    refine ⟨fun released => ?_, fun kept => ?_⟩
    · rw [if_pos ((releasable_iff u).mpr released)]
    · rw [if_neg fun h => kept ((releasable_iff u).mp h)]
  · rw [finish_hld, releaseTest_hld_of_not idle]
  · refine ⟨?_, fun due => ?_, fun undue => ?_⟩
    · rw [finish_changeWaiting, Bool.or_eq_true, reportChanged_iff]
    · rw [finish_tx, if_pos due]
      exact ⟨rfl, rfl, rfl⟩
    · rw [finish_tx, if_neg undue]
      exact ⟨rfl, rfl, rfl⟩
  · rw [finish_quiet]
    have proves : (old.part.working = true ∧ u.part.working = true ∧ u.provesQuiet i = true) ↔
        (old.part.working = true ∧ u.part.working = true ∧ u.present i = true ∧ u.role i ≠ .far
          ∧ (u.arm i).quietProof = true) := by
      simp only [State.provesQuiet, Bool.and_eq_true, bne_iff_ne, and_assoc]
    refine ⟨fun unproved => ?_, fun proved clear => ?_, fun proved set fresh => ?_, fun proved set stays =>
      ⟨fun running counted => ?_, fun idle => ?_⟩⟩
    · rw [if_neg fun h => unproved (proves.mp h)]
    · rw [if_pos (proves.mpr proved)]
      simp [quietAfter, clear]
    · rw [if_pos (proves.mpr proved)]
      simp [quietAfter, set, fresh]
    · rw [if_pos (proves.mpr proved)]
      simp only [quietAfter, set, stays, running, if_true, Bool.true_and, Bool.or_eq_true, bne_iff_ne, or_assoc, if_pos counted]
    · rw [if_pos (proves.mpr proved)]
      simp only [quietAfter, set, stays, if_true, Bool.and_eq_true, Bool.or_eq_true, bne_iff_ne, or_assoc]
      refine if_neg fun ⟨running, counted⟩ => ?_
      rcases idle with idle | uncounted
      · simp [running] at idle
      · exact uncounted counted

end Sys2Proof.Machine

namespace Sys2Proof.Machine

/-! ### Start-up -/

theorem part_eq (s : State) : s.part = s.scu.part := rfl

/-- A part state in which nothing is reported is neither RUNNING nor one that grants. -/
theorem not_running_of_silent {s : State} (h : s.part.reporting = false) : s.part ≠ .running := by
  intro running
  rw [running] at h
  cases h

/-- The end of an event changes nothing where the part has not worked before it and does not report after it. -/
theorem finish_of_starting {old u : State} (before : old.part.working = false) (after : u.part.reporting = false) :
    State.finish old u = u := by
  have stopped := not_running_of_silent after
  have ungranting : u.granting = false := by simp [State.granting, stopped]
  have triggered : (if State.admissionOpened old u then u.trigger else u) = u := by
    simp [State.trigger, ungranting]
  have unchanged : State.reportChanged old u = false := by simp [State.reportChanged, before]
  unfold State.finish
  simp [triggered, unchanged, State.settleQuiet, before, State.releaseTest, stopped, State.pokeReport, after]

/-- Settles O7. -/
theorem loadingOutcome : Obligations.LoadingOutcome := by
  intro s released loading
  have before : s.part.working = false := by rw [loading]; rfl
  have outcome (low : Bool) (silent : (s.endLoading low).part.reporting = false) :
      exec (.loadingComplete low) s = .next (s.endLoading low) := by
    show Host.Outcome.next (s.event _) = _
    rw [event_of_released released, if_pos (by simp [loading]), finish_of_starting before silent]
  refine ⟨outcome true rfl, fun refused => ?_, fun c passed => ?_⟩
  · have ends : s.endLoading false = { s with
        scu := { s.scu with part := .unconfigured, load := .refused }
        mtp := { s.mtp with flags := s.mtp.flags ||| EventKind.configFault.mask } } := by
      simp only [State.endLoading, Bool.false_eq_true, if_false, refused]
      rfl
    rw [outcome false (by rw [ends]; rfl), ends]
  · have ends : s.endLoading false = s.loaded c := by
      simp only [State.endLoading, Bool.false_eq_true, if_false, passed]
    refine ⟨s.loaded c, ?_, rfl, rfl, fun i => ?_, rfl, rfl, rfl, rfl, rfl, rfl, rfl, rfl⟩
    · rw [outcome false (by rw [ends]; rfl), ends]
    · have seg : (s.loaded c).seg i = ((s.loaded c).loadedSeg i) := Quad.get_build _ i
      rw [seg]
      unfold State.loadedSeg
      cases (s.loaded c).fixedDirection i <;> rfl

/-! ### The timebase -/

/-- The state that entry into LISTENING leaves, before the neighbour records are looked at (R114, R116, R125, R168). -/
def State.listening (osc : Byte) (raw : RawLevels) (s : State) : State :=
  (((s.modScu fun u =>
    { u with
      part := .listening
      onReference := true
      osc := osc
      epoch := epochOf osc
      listening := .running 0
      crossingQuiet := if u.cfg.crossingProof then .running 0 else .stopped
      recheck := .running 0 }).startLine).startFilters raw).startQuiet

/-- A stage of the reference is counted (R167). -/
def State.staged (s : State) : State :=
  s.modScu fun u => { u with stages := s.scu.stages + 1, refCount := stagePeriods (s.scu.stages + 1) }

/-- The neighbour records that entry into LISTENING leaves are LIVE where they were. -/
theorem listening_allLive (osc : Byte) (raw : RawLevels) (s : State) : (s.listening osc raw).allLive = s.allLive := by
  have state (i : Arm) : ((s.listening osc raw).nbr i).state = (s.nbr i).state := by
    simp [State.listening, State.nbr, State.startQuiet, State.startFilters, State.startLine, State.modScu]
  have faces (i : Arm) : (s.listening osc raw).hasNeighbour i = s.hasNeighbour i := rfl
  simp only [State.allLive, state, faces]

/-- The required stage enters LISTENING, which passes on at once where every neighbour record is LIVE (R168, R170). -/
theorem reachStage_required {s : State} (osc : Byte) (raw : RawLevels) (required : s.scu.stages + 1 = s.cfg.refStage) :
    s.reachStage osc raw =
      if s.allLive then (s.staged.listening osc raw).enterRecovering else s.staged.listening osc raw := by
  have live : (s.staged.listening osc raw).allLive = s.allLive := listening_allLive osc raw s.staged
  have enters : s.reachStage osc raw = (s.staged.listening osc raw).listenTest := if_pos required
  have listens : (s.staged.listening osc raw).part = .listening := rfl
  rw [enters]
  unfold State.listenTest
  rw [live, listens]
  simp

/-- Settles O10. -/
theorem referenceStages : Obligations.ReferenceStages := by
  refine ⟨rfl, fun s osc raw released settling => ?_⟩
  have before : s.part.working = false := by rw [settling]; rfl
  have missing : exec .referenceEdgeMissing s
      = .next (State.finish s (s.modScu fun u => { u with refCount := 0, stages := 0 })) := by
    show Host.Outcome.next (s.event _) = _
    rw [event_of_released released, if_pos (by simp [settling])]
  have reaches : exec (.referenceStage osc raw) s = .next (State.finish s (s.reachStage osc raw)) := by
    show Host.Outcome.next (s.event _) = _
    rw [event_of_released released, if_pos (by simp [settling])]
  have silent {u : State} (same : u.part = s.part) : State.finish s u = u :=
    finish_of_starting before (by rw [same, settling]; rfl)
  refine ⟨?_, fun below => ?_, fun required live => ?_, fun required waiting => ?_⟩
  · rw [missing, silent (u := s.modScu _) rfl]
    rfl
  · have stays : s.reachStage osc raw = s.staged := if_neg below
    rw [reaches, stays, silent (u := s.staged) rfl]
    rfl
  · rw [reaches, reachStage_required osc raw required, if_pos live]
    have tx := finish_tx s (s.staged.listening osc raw).enterRecovering
    have changeWaiting := finish_changeWaiting s (s.staged.listening osc raw).enterRecovering
    refine ⟨_, rfl, ?_, ?_, ?_, ?_, ?_, ?_, ?_⟩
    · simp [State.part]
      rfl
    · simp
      rfl
    · simp
      rfl
    · simp
      rfl
    · rw [tx]
      split <;> rfl
    · rw [changeWaiting]
      rfl
    · rw [tx]
      split
      · exact nofun
      · exact nofun
  · rw [reaches, reachStage_required osc raw required, if_neg (by simp [waiting]), finish_of_starting before rfl]
    refine ⟨_, rfl, rfl, rfl, rfl, fun i present => ?_, fun fitted => ?_, rfl, fun i => ?_, fun i => ?_, rfl, rfl, rfl, rfl,
      rfl, rfl, rfl, rfl⟩
    · have ent : (s.staged.listening osc raw).xu.ent.get i = Filter.setFrom (raw.ent.get i) :=
        (Quad.get_build _ i).trans (if_pos present)
      have ext : (s.staged.listening osc raw).xu.ext.get i = Filter.setFrom (raw.ext.get i) :=
        (Quad.get_build _ i).trans (if_pos present)
      rw [ent, ext]
      refine ⟨rfl, ?_, rfl, ?_⟩
      · cases raw.ent.get i <;> rfl
      · cases raw.ext.get i <;> rfl
    · have box : (s.staged.listening osc raw).xu.box = Filter.setFrom raw.box := if_pos fitted
      rw [box]
      rfl
    · have nbr : (s.staged.listening osc raw).nbr i = { s.nbr i with silence := 0, late := false } := Quad.get_map _ _ i
      rw [nbr]
      exact ⟨rfl, rfl⟩
    · have seg : (s.staged.listening osc raw).seg i
          = if s.provesQuiet i && (s.seg i).unsure then { s.seg i with quiet := .running 0 } else s.seg i :=
        Quad.get_build _ i
      rw [seg]
      simp only [Bool.and_eq_true]
      split <;> rfl

/-! ### RECOVERING and RUNNING -/

/-- The transmitter at entry into RECOVERING: the periodic timer starts, a change report is scheduled, and a REPORT REQUEST
that is not being sent is dropped (R116, R128). -/
def Transmitter.startReports (t : Transmitter) : Transmitter :=
  { (if t.pending = some .request ∧ t.state ≠ .sending then t.toIdle else t) with
    periodic := .running 0, changeWaiting := true }

theorem enterRecovering_eq (s : State) : s.enterRecovering = { s with
    scu := { s.scu with part := .recovering, listening := .stopped }
    fli := { s.fli with tx := s.fli.tx.startReports } } := rfl

theorem startReports_kept {t : Transmitter} (h : ¬ (t.pending = some .request ∧ t.state ≠ .sending)) :
    t.startReports = { t with periodic := .running 0, changeWaiting := true } := by
  simp only [Transmitter.startReports, if_neg h]

theorem startReports_dropped {t : Transmitter} (h : t.pending = some .request ∧ t.state ≠ .sending) :
    t.startReports = { t with state := .idle, pending := none, attempts := 0, backoff := .stopped, build := [],
                              periodic := .running 0, changeWaiting := true } := by
  simp only [Transmitter.startReports, if_pos h, Transmitter.toIdle]

/-- What the end of the event makes of the transmitter with which the part enters RECOVERING: the change report falls due
where the transmitter is IDLE and the spacing has elapsed (R119). -/
theorem finish_startReports (s : State) : (State.finish s s.enterRecovering).fli.tx =
    if s.fli.tx.startReports.state = .idle ∧ s.fli.tx.spacing = .expired then
      { s.fli.tx.startReports with state := .waiting, pending := some .report, attempts := 1 }
    else s.fli.tx.startReports := by
  have waiting : s.fli.tx.startReports.changeWaiting = true := rfl
  have spacing : s.fli.tx.startReports.spacing = s.fli.tx.spacing := by
    unfold Transmitter.startReports
    split <;> rfl
  have reporting : s.enterRecovering.part.reporting = true := rfl
  have tx : s.enterRecovering.fli.tx = s.fli.tx.startReports := rfl
  rw [finish_tx, finish_changeWaiting, reporting, tx, ← spacing]
  generalize s.fli.tx.startReports = r at waiting
  simp only [waiting, Bool.true_or, true_and]
  split
  · exact waiting ▸ rfl
  · exact waiting ▸ rfl

theorem crossingQuietProved_iff (s : State) : s.crossingQuietProved = true ↔
    s.xu.unmatched = [] ∧ (s.cfg.boxFitted = true → s.xu.box.level = false) := by
  simp only [State.crossingQuietProved, State.boxIdle, Bool.and_eq_true, List.isEmpty_iff, Bool.or_eq_true,
    Bool.not_eq_true', imp_iff_not_or, Bool.not_eq_true]

/-- The state that crossing resolution leaves, before the round and the walkway's interval (R172, R173). -/
def State.resolved (s : State) : State :=
  (s.mapCells Cell.resolve).modScu fun u => { u with part := .running, crossingQuiet := .stopped }

theorem resolved_granting (s : State) : s.resolved.granting = !s.held := rfl

theorem resolveCrossing_wkp (s : State) : s.resolveCrossing.wkp =
    if s.walkWorking = true ∧ s.held = false then { s.wkp with interval := .running 0 } else s.wkp := by
  have granting : s.resolved.trigger.granting = !s.held := by
    rw [← resolved_granting]
    simp [State.granting, State.part, State.held]
  have walk : s.resolved.trigger.walkWorking = s.walkWorking := by
    unfold State.trigger
    split <;> rfl
  have wkp : s.resolved.trigger.wkp = s.wkp := by simp [State.resolved, State.modScu]
  have eq : s.resolveCrossing = s.resolved.trigger.startInterval := rfl
  rw [eq]
  unfold State.startInterval
  rw [granting, walk]
  simp only [Bool.and_eq_true, Bool.not_eq_true']
  split
  · rw [← wkp]
    rfl
  · exact wkp

/-- Besides what it makes due, crossing resolution changes the cells and the part state. -/
theorem resolveCrossing_resolved (s : State) :
    s.resolveCrossing.scu = s.resolved.scu ∧ s.resolveCrossing.aqu = s.resolved.aqu
    ∧ s.resolveCrossing.closures = s.resolved.closures ∧ s.resolveCrossing.xu = s.resolved.xu
    ∧ s.resolveCrossing.nbrs = s.resolved.nbrs ∧ s.resolveCrossing.mtp = s.resolved.mtp := by
  have eq : s.resolveCrossing = s.resolved.trigger.startInterval := rfl
  simp [eq]

theorem resolveCrossing_due {s : State} (unheld : s.held = false) : s.resolveCrossing.jar.due = true := by
  have eq : s.resolveCrossing = s.resolved.trigger.startInterval := rfl
  rw [eq, (startInterval_keeps _).2.2.2.2.1]
  simp [State.trigger, resolved_granting, unheld]

/-- Settles O11. -/
theorem entryIntoRecoveringAndRunning : Obligations.EntryIntoRecoveringAndRunning := by
  refine ⟨fun s released listening runs => ?_, fun s released recovering runs =>
    ⟨fun matched unboxed => ?_, fun unproved => ?_⟩⟩
  · have expires : exec .listeningWindowExpiry s = .next (State.finish s s.enterRecovering) := by
      show Host.Outcome.next (s.event _) = _
      rw [event_of_released released, if_pos (by simp [listening, runs])]
    have tx := finish_startReports s
    refine ⟨expires.trans ?_, _, expires, ?_⟩
    · rw [enterRecovering_eq]
      by_cases drop : s.fli.tx.pending = some .request ∧ s.fli.tx.state ≠ .sending
      · rw [if_pos drop, startReports_dropped drop]
      · rw [if_neg drop, startReports_kept drop]
    · rw [tx]
      by_cases drop : s.fli.tx.pending = some .request ∧ s.fli.tx.state ≠ .sending
      · rw [startReports_dropped drop]
        by_cases spaced : s.fli.tx.spacing = .expired
        · simp_all
        · simp_all
      · rw [startReports_kept drop]
        dsimp only
        refine ⟨?_, ?_, ?_, fun quiet spaced => ?_, fun pending unsent => absurd ⟨pending, unsent⟩ drop, fun stays => ?_⟩
        · split <;> rfl
        · split <;> rfl
        · split <;> rfl
        · rw [if_pos ⟨quiet.resolve_right drop, spaced⟩]
          exact ⟨rfl, rfl, rfl⟩
        · rw [if_neg]
          · exact ⟨rfl, rfl, rfl, rfl⟩
          · rintro ⟨idle, spaced⟩
            rcases stays with sending | ⟨-, -, unspaced⟩
            · simp [idle] at sending
            · exact unspaced spaced
  · have expires : exec .crossingQuietExpiry s = .next (State.finish s s.resolveCrossing) := by
      show Host.Outcome.next (s.event _) = _
      rw [event_of_released released, if_pos (by simp [recovering, runs]),
        if_pos ((crossingQuietProved_iff s).mpr ⟨matched, unboxed⟩)]
    obtain ⟨scu, aqu, closures, xu, nbrs, mtp⟩ := resolveCrossing_resolved s
    refine ⟨_, expires, ?_, fun k => ?_, ?_, ?_, fun unheld => ?_, fun unheld works => ?_, fun held => ?_, ?_, ?_, ?_, ?_⟩
    · rw [(finish_keeps _ _).1, scu]
      rfl
    · have cells : (State.finish s s.resolveCrossing).cell k = s.resolved.cell k := by simp [State.cell, xu]
      rw [cells]
      have resolves : s.resolved.cell k = Cell.resolve (s.cell k) := Quad.get_map _ _ k
      rw [resolves]
      cases s.cell k <;> rfl
    · rw [(finish_keeps _ _).2.2.2.1, xu]
      rfl
    · rw [(finish_keeps _ _).2.2.2.1, xu]
      exact matched
    · rw [finish_due, resolveCrossing_due unheld, Bool.true_or]
    · rw [(finish_keeps _ _).2.2.2.2.2.1, resolveCrossing_wkp, if_pos ⟨works, unheld⟩]
    · rw [(finish_keeps _ _).2.2.2.2.2.1, resolveCrossing_wkp, if_neg (by simp [held])]
    · rw [(finish_keeps _ _).2.1, aqu]
      rfl
    · rw [(finish_keeps _ _).2.2.1, closures]
      rfl
    · rw [(finish_keeps _ _).2.2.2.2.1, nbrs]
      rfl
    · rw [(finish_keeps _ _).2.2.2.2.2.2.1, mtp]
      rfl
  · show Host.Outcome.next (s.event _) = _
    rw [event_of_released released, if_pos (by simp [recovering, runs]), if_neg]
    · rfl
    · rw [crossingQuietProved_iff]
      rintro ⟨matched, unboxed⟩
      rcases unproved with unmatched | ⟨fitted, boxed⟩
      · exact unmatched matched
      · simp [unboxed fitted] at boxed

end Sys2Proof.Machine

/-! ## Hold entry

Step 3 of hold entry withdraws grants one by one. `GrantsTaken s ds u` says what has been done when the grants of the carriers
`ds` have gone; the fold reaches every GRANTED entry whose carrier is not committed, and `GrantsHeld` is read off its end. -/

namespace Sys2Proof.Machine

/-- A movement record with the entries that `p` keeps; none, when it keeps none. -/
def Movement.keeping (p : Entry → Bool) (m : Movement) : Option Movement :=
  let kept := m.carriers.filter p
  if kept = [] then none else some { m with carriers := kept }

theorem keeping_none {p : Entry → Bool} {m : Movement} (h : m.carriers.filter p = []) : m.keeping p = none := if_pos h

theorem keeping_some {p : Entry → Bool} {m : Movement} (h : m.carriers.filter p ≠ []) :
    m.keeping p = some { m with carriers := m.carriers.filter p } := if_neg h

theorem keeping_congr {p q : Entry → Bool} {m : Movement} (h : ∀ e ∈ m.carriers, p e = q e) :
    m.keeping p = m.keeping q := by
  unfold Movement.keeping
  rw [List.filter_congr h]

/-- The entry holds a grant of one of the carriers `ds`. -/
def takesGrant (ds : List CarrierId) (e : Entry) : Bool := e.status.isGranted && ds.contains e.id

theorem takesGrant_iff {ds : List CarrierId} {e : Entry} :
    takesGrant ds e = true ↔ e.status.isGranted = true ∧ e.id ∈ ds := by simp [takesGrant]

/-- What a cell becomes when its movement record ends while no designation stands (R52). -/
def State.vacated (s : State) : Cell := if s.heldForCarrier || s.part == .faulted then .emergency else .free

theorem releasedCell_of_none {s : State} (h : s.jar.overdue = none) (k : Arm) : s.releasedCell k = s.vacated := by
  unfold State.releasedCell State.vacated
  rw [h]

/-- From `s` to `u` the grants of the carriers `ds` have been withdrawn, and their records are WAITING or MUTE. -/
structure GrantsTaken (s : State) (ds : List CarrierId) (u : State) : Prop where
  law : GrantLaw u
  overdue : u.jar.overdue = none
  scu : u.scu = s.scu
  hld : u.hld = s.hld
  moves : ∀ k, u.move k = (s.move k).bind (Movement.keeping fun e => !takesGrant ds e)
  reservations : ∀ k m, s.move k = some m →
    (u.seg m.exit).r = (s.seg m.exit).r - (m.carriers.filter (takesGrant ds)).length
  queues : ∀ k, u.queue k = (s.queue k).map fun c => if c.id ∈ ds then c.toWaiting else c
  sends : u.aqu.sends = s.aqu.sends
  unmatched : u.xu.unmatched = s.xu.unmatched
  cells : ∀ k, u.cell k = s.cell k ∨ (∃ i, s.cell k = .held i) ∧ u.cell k = s.vacated

/-- A carrier is granted on one arm alone. -/
theorem GrantsMatch.arm_unique {q : Arm → List Carrier} {g : Arm → List CarrierId} {x : Arm → Option Arm}
    (h : GrantsMatch q g x) {i j : Arm} {n : CarrierId} (hi : n ∈ g i) (hj : n ∈ g j) : i = j := by
  obtain ⟨c, hc, hcid, -⟩ := h.entry i n hi
  obtain ⟨d, hd, hdid, -⟩ := h.entry j n hj
  exact (h.eq_of_id hc hd (hcid.trans hdid.symm)).1

/-- The entry arm of a GRANTED entry is found by its carrier. -/
theorem grantOf_of_mem {s : State} (hs : GrantLaw s) {i : Arm} {m : Movement} {e : Entry} (hm : s.move i = some m)
    (he : e ∈ m.carriers) (hg : e.status.isGranted = true) : s.grantOf e.id = some i := by
  have match' := ((grantLaw_iff s).mp hs).1
  cases h : s.grantOf e.id with
  | none => exact absurd (mem_grantedOn.mpr ⟨m, hm, e, he, hg, rfl⟩) (grantOf_none h i)
  | some j =>
    obtain ⟨n, hn, some'⟩ := move_of_grantOf h
    obtain ⟨d, hd, hto⟩ := List.any_eq_true.mp some'
    simp only [Entry.grantedTo, Bool.and_eq_true, beq_iff_eq] at hto
    rw [match'.arm_unique (mem_grantedOn.mpr ⟨m, hm, e, he, hg, rfl⟩) (mem_grantedOn.mpr ⟨n, hn, d, hd, hto.2, hto.1⟩)]

/-- One carrier more of a list without repetition. -/
theorem countP_contains_cons {x : CarrierId} {ds l : List CarrierId} (nodup : l.Nodup) (mem : x ∈ l) (new : x ∉ ds) :
    l.countP (x :: ds).contains = l.countP ds.contains + 1 := by
  induction l with
  | nil => cases mem
  | cons y l ih =>
    obtain ⟨fresh, nodup⟩ := List.nodup_cons.mp nodup
    by_cases e : y = x
    · subst e
      have rest : l.countP (y :: ds).contains = l.countP ds.contains := List.countP_congr fun z hz => by
        have : z ≠ y := fun e => fresh (e ▸ hz)
        simp [this]
      rw [List.countP_cons_of_pos (by simp), List.countP_cons_of_neg (by simpa using new), rest]
    · have mem : x ∈ l := (List.mem_cons.mp mem).resolve_left (Ne.symm e)
      have same : (x :: ds).contains y = ds.contains y := by simp [e]
      rw [List.countP_cons, List.countP_cons, same, ih nodup mem]
      omega

theorem takesGrant_count (ds : List CarrierId) (l : List Entry) :
    (l.filter (takesGrant ds)).length = (grantedIds l).countP ds.contains := by
  rw [← List.countP_eq_length_filter, grantedIds, List.countP_map, List.countP_filter]
  exact List.countP_congr fun e _ => by simp [takesGrant, and_comm]

/-- One GRANTED entry more has lost its grant. -/
theorem takesGrant_cons {ds : List CarrierId} {l : List Entry} {e : Entry} (single : (grantedIds l).Nodup) (he : e ∈ l)
    (hg : e.status.isGranted = true) (new : e.id ∉ ds) :
    (l.filter (takesGrant (e.id :: ds))).length = (l.filter (takesGrant ds)).length + 1 := by
  rw [takesGrant_count, takesGrant_count]
  exact countP_contains_cons single (mem_grantedIds.mpr ⟨e, he, hg, rfl⟩) new

/-- Where no entry of a list is granted to a carrier, the carrier's grant takes none of them. -/
theorem takesGrant_cons_of_notMem {ds : List CarrierId} {l : List Entry} {id : CarrierId} (h : id ∉ grantedIds l) :
    ∀ e ∈ l, takesGrant (id :: ds) e = takesGrant ds e := fun e he => by
  cases hg : e.status.isGranted with
  | false => simp [takesGrant, hg]
  | true =>
    have : e.id ≠ id := fun hid => h (mem_grantedIds.mpr ⟨e, he, hg, hid⟩)
    simp [takesGrant, hg, this]

theorem dropGranted_filter (ds : List CarrierId) (id : CarrierId) (l : List Entry) :
    dropGranted id (l.filter fun e => !takesGrant ds e) = l.filter fun e => !takesGrant (id :: ds) e := by
  rw [dropGranted, List.filter_filter]
  refine List.filter_congr fun e _ => ?_
  rw [Entry.grantedTo, takesGrant, takesGrant, List.contains_cons]
  cases e.status.isGranted <;> cases e.id == id <;> simp

/-- The withdrawal of one grant more. -/
theorem GrantsTaken.withdraw {s u : State} {ds : List CarrierId} (h : GrantsTaken s ds u) (hs : GrantLaw s)
    (hc : CrossingLaw s) {i : Arm} {m : Movement} {e : Entry} (hm : s.move i = some m) (he : e ∈ m.carriers)
    (hg : e.status.isGranted = true) (new : e.id ∉ ds) :
    GrantsTaken s (e.id :: ds) ((u.withdrawGrant e.id).onRecord i e.id Carrier.toWaiting) := by
  have match' := ((grantLaw_iff s).mp hs).1
  have kept : e ∈ m.carriers.filter fun e => !takesGrant ds e := by simp [takesGrant, he, new]
  have move : u.move i = some { m with carriers := m.carriers.filter fun e => !takesGrant ds e } := by
    rw [h.moves, hm, Option.bind_some, keeping_some (List.ne_nil_of_mem kept)]
  have here : e.id ∈ s.grantedOn i := mem_grantedOn.mpr ⟨m, hm, e, he, hg, rfl⟩
  have known : (u.recordOn i e.id).isSome := by
    obtain ⟨c, hcq, hcid, -⟩ := ((grantLaw_iff u).mp h.law).1.entry i e.id (mem_grantedOn.mpr ⟨_, move, e, kept, hg, rfl⟩)
    rw [← hcid, recordOn_of_mem h.law hcq]
    rfl
  have found : u.grantOf e.id = some i := grantOf_of_mem h.law move kept hg
  obtain ⟨moves, cells, reservations, -, unmatched, -, -, -, aqu, overdue⟩ := withdrawGrant_does found move
  rw [h.overdue] at overdue
  obtain ⟨overdue', xu, aqu'⟩ := onQueue_none overdue i (updateRecord e.id Carrier.toWaiting)
  have elsewhere : ∀ k, i ≠ k → e.id ∉ s.grantedOn k := fun k hk hmem => hk (match'.arm_unique here hmem)
  refine ⟨grantLaw_unseat h.law toWaiting_unseats known, overdue', ?_, ?_, fun k => ?_, fun k n hn => ?_, fun k => ?_, ?_, ?_,
    fun k => ?_⟩
  · simpa using h.scu
  · simpa using h.hld
  · have kept' : ((u.withdrawGrant e.id).onRecord i e.id Carrier.toWaiting).move k = (u.withdrawGrant e.id).move k := by
      rw [State.move, State.onRecord, xu, State.move]
    rw [kept', moves]
    split
    · next e' =>
      subst e'
      rw [hm, Option.bind_some, dropGranted_filter]
      rfl
    · next e' =>
      rw [h.moves]
      cases hn : s.move k with
      | none => rfl
      | some n =>
        refine keeping_congr fun d hd => ?_
        rw [takesGrant_cons_of_notMem (grantedOn_of_move hn ▸ elsewhere k e') d hd]
  · have kept' : (((u.withdrawGrant e.id).onRecord i e.id Carrier.toWaiting).seg n.exit).r
        = ((u.withdrawGrant e.id).seg n.exit).r := (onQueue_counts _ _ _ _).2.2.1
    rw [kept', reservations]
    by_cases e' : i = k
    · subst e'
      rw [hm] at hn
      cases hn
      have single := grantedOn_of_move hm ▸ match'.single i
      rw [if_pos rfl, h.reservations i m hm, takesGrant_cons single he hg new, Nat.sub_sub]
    · have exits : m.exit ≠ n.exit := fun same =>
        hc.disjoint e' hm hn (m.exit - 1) ⟨last_cell i m.exit (hc.1 i m hm).1, same ▸ last_cell k n.exit (hc.1 k n hn).1⟩
      rw [if_neg exits, h.reservations k n hn,
        List.filter_congr (takesGrant_cons_of_notMem (grantedOn_of_move hn ▸ elsewhere k e'))]
  · have changed : ((u.withdrawGrant e.id).onRecord i e.id Carrier.toWaiting).queue k
        = if i = k then updateRecord e.id Carrier.toWaiting (u.queue k) else u.queue k := by
      rw [State.queue, State.onRecord, aqu', State.queue, aqu, Quad.get_set]
      split
      · next e' => rw [← e']; rfl
      · rfl
    rw [changed, h.queues]
    split
    · next e' =>
      rw [updateRecord, List.map_map]
      refine List.map_congr_left fun d hd => ?_
      have sameId : ∀ b : Carrier, b.toWaiting.id = b.id := fun _ => rfl
      by_cases hds : d.id ∈ ds
      · have : d.id ≠ e.id := fun e => new (e ▸ hds)
        simp [hds, sameId, this]
      · by_cases hid : d.id = e.id
        · simp [hid, new]
        · simp [hds, hid]
    · next e' =>
      refine List.map_congr_left fun d hd => ?_
      obtain ⟨c, hcq, hcid, -⟩ := match'.entry i e.id here
      have : d.id ≠ e.id := fun hid => match'.apart i k e' c hcq d hd (hcid.trans hid.symm)
      simp [this]
  · rw [State.onRecord, aqu', aqu]
    exact h.sends
  · rw [State.onRecord, xu, unmatched, h.unmatched]
  · have kept' : ((u.withdrawGrant e.id).onRecord i e.id Carrier.toWaiting).cell k = (u.withdrawGrant e.id).cell k := by
      rw [State.cell, State.onRecord, xu, State.cell]
    rw [kept', cells]
    split
    · next inside =>
      refine .inr ⟨⟨i, (hc.1 i m hm).2.2 k inside.2⟩, ?_⟩
      rw [releasedCell_of_none h.overdue, State.vacated, State.vacated, State.heldForCarrier, State.heldForCarrier,
        h.hld, State.part, State.part, h.scu]
    · exact h.cells k

/-- The commitment test of an entry whose grant stands asks what it asked at first. -/
theorem GrantsTaken.entryCommitted {s u : State} {ds : List CarrierId} (h : GrantsTaken s ds u) (hs : GrantLaw s) {i : Arm}
    {id : CarrierId} (granted : id ∈ s.grantedOn i) (new : id ∉ ds) : u.entryCommitted i id = s.entryCommitted i id := by
  obtain ⟨c, hc, rfl, -⟩ := ((grantLaw_iff s).mp hs).1.entry i id granted
  have hu : c ∈ u.queue i := by
    rw [h.queues]
    exact List.mem_map.mpr ⟨c, hc, if_neg new⟩
  rw [State.entryCommitted, State.entryCommitted, recordOn_of_mem hs hc, recordOn_of_mem h.law hu, State.cfg, State.cfg, h.scu]

/-- The carrier holds a grant on the arm and is not committed. -/
def State.losesGrant (s : State) (i : Arm) (id : CarrierId) : Prop := id ∈ s.grantedOn i ∧ s.entryCommitted i id = false

/-- Step 3 of hold entry for entries of one carrier list. -/
theorem GrantsTaken.entries {s : State} (hs : GrantLaw s) (hc : CrossingLaw s) {i : Arm} {m : Movement} (hm : s.move i = some m)
    (l : List Entry) : ∀ (ds : List CarrierId) (u : State), GrantsTaken s ds u → (∀ e ∈ l, e ∈ m.carriers) →
      (grantedIds l).Nodup → (∀ id ∈ grantedIds l, id ∉ ds) →
      ∃ es, GrantsTaken s es (l.foldl (State.holdEntryGrant i) u)
        ∧ ∀ id, id ∈ es ↔ id ∈ ds ∨ id ∈ grantedIds l ∧ s.entryCommitted i id = false := by
  induction l with
  | nil => exact fun ds u h _ _ _ => ⟨ds, h, fun id => by simp [grantedIds]⟩
  | cons e l ih =>
    intro ds u h sub single new
    have he := sub e List.mem_cons_self
    have rest : ∀ d ∈ l, d ∈ m.carriers := fun d hd => sub d (List.mem_cons_of_mem _ hd)
    rw [List.foldl_cons]
    cases hg : e.status.isGranted with
    | false =>
      have skips : u.holdEntryGrant i e = u := if_neg (by simp [hg])
      have ids : grantedIds (e :: l) = grantedIds l := by simp [grantedIds, hg]
      rw [ids] at single new
      rw [skips, ids]
      exact ih ds u h rest single new
    | true =>
      have ids : grantedIds (e :: l) = e.id :: grantedIds l := by simp [grantedIds, hg]
      rw [ids] at single new
      rw [ids]
      have newId : e.id ∉ ds := new e.id List.mem_cons_self
      have test := h.entryCommitted hs (mem_grantedOn.mpr ⟨m, hm, e, he, hg, rfl⟩) newId
      obtain ⟨fresh, single⟩ := List.nodup_cons.mp single
      have new' : ∀ id ∈ grantedIds l, id ∉ ds := fun id hid => new id (List.mem_cons_of_mem _ hid)
      cases committed : s.entryCommitted i e.id with
      | true =>
        have keeps : u.holdEntryGrant i e = u := if_neg (by simp [test, committed])
        rw [keeps]
        obtain ⟨es, hes, mem⟩ := ih ds u h rest single new'
        refine ⟨es, hes, fun id => (mem id).trans (or_congr_right ?_)⟩
        rw [List.mem_cons]
        exact and_congr_left fun free => (or_iff_right fun h => by simp [h, committed] at free).symm
      | false =>
        have takes : u.holdEntryGrant i e = (u.withdrawGrant e.id).onRecord i e.id Carrier.toWaiting :=
          if_pos (by simp [hg, test, committed])
        rw [takes]
        obtain ⟨es, hes, mem⟩ := ih (e.id :: ds) _ (h.withdraw hs hc hm he hg newId) rest single fun id hid => by
          have : id ≠ e.id := fun h => fresh (h ▸ hid)
          simp [this, new' id hid]
        refine ⟨es, hes, fun id => (mem id).trans ?_⟩
        by_cases h : id = e.id
        · subst h
          simp [committed]
        · simp [h]

/-- Step 3 of hold entry for the carrier lists of some arms. -/
theorem GrantsTaken.arms {s : State} (hs : GrantLaw s) (hc : CrossingLaw s) (l : List Arm) : ∀ (ds : List CarrierId) (u : State),
    GrantsTaken s ds u → l.Nodup → (∀ i ∈ l, ∀ id ∈ s.grantedOn i, id ∉ ds) →
      ∃ es, GrantsTaken s es (l.foldl (fun t i => match t.move i with
        | none => t
        | some m => m.carriers.foldl (State.holdEntryGrant i) t) u)
        ∧ ∀ id, id ∈ es ↔ id ∈ ds ∨ ∃ i ∈ l, s.losesGrant i id := by
  induction l with
  | nil => exact fun ds u h _ _ => ⟨ds, h, fun id => by simp⟩
  | cons i l ih =>
    intro ds u h nodup new
    obtain ⟨fresh, nodup⟩ := List.nodup_cons.mp nodup
    rw [List.foldl_cons]
    cases hm : s.move i with
    | none =>
      have skips : u.move i = none := by rw [h.moves, hm]; rfl
      rw [skips]
      obtain ⟨es, hes, mem⟩ := ih ds u h nodup fun j hj => new j (List.mem_cons_of_mem _ hj)
      refine ⟨es, hes, fun id => (mem id).trans (or_congr_right ?_)⟩
      have none' : ¬ s.losesGrant i id := fun hl => by simp [State.losesGrant, State.grantedOn, hm] at hl
      simp [none']
    | some m =>
      have granted := grantedOn_of_move hm
      have untouched : ∀ e ∈ m.carriers, (!takesGrant ds e) = true := fun e he => by
        rw [Bool.not_eq_true', ← Bool.not_eq_true, takesGrant_iff]
        exact fun ⟨hg, hid⟩ => new i List.mem_cons_self e.id (granted ▸ mem_grantedIds.mpr ⟨e, he, hg, rfl⟩) hid
      have here : u.move i = some m := by
        rw [h.moves, hm, Option.bind_some, Movement.keeping, List.filter_eq_self.mpr untouched]
        exact if_neg (hc.1 i m hm).2.1
      rw [here]
      obtain ⟨ds', h', mem'⟩ := GrantsTaken.entries hs hc hm m.carriers ds u h (fun _ he => he)
        (granted ▸ ((grantLaw_iff s).mp hs).1.single i) fun id hid => new i List.mem_cons_self id (granted ▸ hid)
      obtain ⟨es, hes, mem⟩ := ih ds' _ h' nodup fun j hj id hid hds => by
        rcases (mem' id).mp hds with hds | ⟨hi, -⟩
        · exact new j (List.mem_cons_of_mem _ hj) id hid hds
        · have same : i = j := ((grantLaw_iff s).mp hs).1.arm_unique (granted ▸ hi) hid
          exact fresh (same ▸ hj)
      refine ⟨es, hes, fun id => (mem id).trans ?_⟩
      rw [mem' id, or_assoc, ← granted, ← State.losesGrant]
      simp

/-- What step 3 of hold entry takes: the grants of the carriers that are not committed. -/
theorem grantsTaken_holdGrants {s : State} (hs : GrantLaw s) (hc : CrossingLaw s) (clear : s.jar.overdue = none) :
    ∃ ds, GrantsTaken s ds s.holdGrants ∧ ∀ id, id ∈ ds ↔ ∃ i, s.losesGrant i id := by
  have start : GrantsTaken s [] s :=
    { law := hs, overdue := clear, scu := rfl, hld := rfl
      moves := fun k => by
        cases hm : s.move k with
        | none => rfl
        | some m =>
          have all : (m.carriers.filter fun e => !takesGrant [] e) = m.carriers := List.filter_eq_self.mpr fun e _ => by
            simp [takesGrant]
          rw [Option.bind_some, Movement.keeping, all]
          exact (if_neg (hc.1 k m hm).2.1).symm
      reservations := fun k m _ => by
        have none' : m.carriers.filter (takesGrant []) = [] := List.filter_eq_nil_iff.mpr fun e _ => by simp [takesGrant]
        rw [none']
        rfl
      queues := fun k => by simp
      sends := rfl, unmatched := rfl, cells := fun k => .inl rfl }
  obtain ⟨es, hes, mem⟩ := GrantsTaken.arms hs hc Arm.list [] s start (by decide) fun _ _ _ _ => by simp
  exact ⟨es, hes, fun id => by simpa using mem id⟩

/-- Step 3 of hold entry does what the statements say of it (R156). -/
theorem grantsHeld_holdGrants {s : State} (hs : GrantLaw s) (hc : CrossingLaw s) (clear : s.jar.overdue = none) :
    GrantsHeld s s.holdGrants := by
  obtain ⟨ds, h, mem⟩ := grantsTaken_holdGrants hs hc clear
  have match' := ((grantLaw_iff s).mp hs).1
  have loses : ∀ i m, s.move i = some m → ∀ e ∈ m.carriers, takesGrant ds e = !s.keepsEntry i e := fun i m hm e he => by
    rw [State.keepsEntry, takesGrant]
    cases hg : e.status.isGranted with
    | false => rfl
    | true =>
      have here : e.id ∈ s.grantedOn i := mem_grantedOn.mpr ⟨m, hm, e, he, hg, rfl⟩
      have : e.id ∈ ds ↔ s.entryCommitted i e.id = false := by
        refine (mem e.id).trans ⟨fun ⟨j, hj⟩ => ?_, fun free => ⟨i, here, free⟩⟩
        rw [match'.arm_unique here hj.1]
        exact hj.2
      cases hcm : s.entryCommitted i e.id <;> simp [this, hcm]
  refine ⟨fun i => ?_, fun i m hm => ?_, fun i c hcq hst => ?_⟩
  · rw [h.moves]
    cases hm : s.move i with
    | none => rfl
    | some m => exact keeping_congr fun e he => by rw [loses i m hm e he, Bool.not_not]
  · rw [h.reservations i m hm, List.filter_congr (loses i m hm)]
  · have here := match'.record i c hcq hst
    have : c.id ∈ ds ↔ c.committed s.cfg = false := by
      have test : s.entryCommitted i c.id = c.committed s.cfg := by rw [State.entryCommitted, recordOn_of_mem hs hcq]
      rw [← test]
      refine (mem c.id).trans ⟨fun ⟨j, hj⟩ => ?_, fun free => ⟨i, here, free⟩⟩
      rw [match'.arm_unique here hj.1]
      exact hj.2
    have stands : (if c.id ∈ ds then c.toWaiting else c) ∈ s.holdGrants.queue i := by
      rw [h.queues]
      exact List.mem_map_of_mem (f := fun c => if c.id ∈ ds then c.toWaiting else c) hcq
    have sameId : (if c.id ∈ ds then c.toWaiting else c).id = c.id := by split <;> rfl
    have found := recordOn_of_mem h.law stands
    rw [sameId] at found
    rw [found]
    cases hcm : c.committed s.cfg with
    | true => simp [this, hcm]
    | false => simp [this, hcm, Carrier.toWaiting]

end Sys2Proof.Machine

namespace Sys2Proof.Machine

/-! ### What withdrawing grants leaves alone while none can be executed -/

theorem trigger_of_not_granting {s : State} (h : s.granting = false) : s.trigger = s := by
  unfold State.trigger
  rw [if_neg (by simp [h])]

theorem openTest_of_not_granting {s : State} (h : s.granting = false) : s.openTest = s := by
  unfold State.openTest
  rw [if_neg (by simp [h])]

/-- Whether grants can be executed is a matter of the part state and the hold causes. -/
theorem granting_of_keeps {s t : State} (hscu : t.scu = s.scu) (hhld : t.hld = s.hld) : t.granting = s.granting := by
  simp only [State.granting, State.part, State.held, hscu, hhld]

/-- From `s` to `t` the walkway and the round due are as they were, no flag is set but COUNT_INCONSISTENT, and in FAULTED no
limit has moved. -/
structure Undisturbed (s t : State) : Prop where
  wkp : t.wkp = s.wkp
  due : t.jar.due = s.jar.due
  flags : ∀ k, k ≠ .countInconsistent → t.flagged k = s.flagged k
  limits : s.part = .faulted → ∀ i, (t.seg i).limit = (s.seg i).limit
  part : t.part = s.part
  granting : t.granting = s.granting

theorem Undisturbed.refl (s : State) : Undisturbed s s := ⟨rfl, rfl, fun _ _ => rfl, fun _ _ => rfl, rfl, rfl⟩

theorem Undisturbed.trans {s t u : State} (h : Undisturbed s t) (h' : Undisturbed t u) : Undisturbed s u :=
  ⟨h'.wkp.trans h.wkp, h'.due.trans h.due, fun k hk => (h'.flags k hk).trans (h.flags k hk),
    fun hp i => (h'.limits (h.part.trans hp) i).trans (h.limits hp i), h'.part.trans h.part, h'.granting.trans h.granting⟩

/-- In FAULTED no limit is open. -/
theorem limitOpen_of_faulted {s : State} (h : s.part = .faulted) (i : Arm) (g : SegEnd) : s.limitOpen i g = false := by
  simp [State.limitOpen, h]

theorem relimit_of_faulted {s : State} (h : s.part = .faulted) (i : Arm) (old new : SegEnd) : s.relimit i old new = new := by
  simp [State.relimit, limitOpen_of_faulted h]

theorem evaluate_of_faulted {s : State} (h : s.part = .faulted) (i : Arm) : s.evaluate i = s := by
  simp [State.evaluate, State.steers, h]

/-- A change of a segment end that sets no limit. -/
theorem undisturbed_modSeg (i : Arm) {f : SegEnd → SegEnd} (hf : ∀ g, (f g).limit = g.limit) (s : State) :
    Undisturbed s (s.modSeg i f) := by
  refine ⟨rfl, rfl, fun _ _ => rfl, fun hp j => ?_, rfl, rfl⟩
  rw [seg_modSeg, relimit_of_faulted hp]
  split
  · next e => rw [hf, e]
  · rfl

theorem undisturbed_takeView (i : Arm) (v : Int) (s : State) : Undisturbed s (s.takeView i v) := by
  refine ⟨by simp, by simp, fun k hk => takeView_flag k hk i v s, fun hp j => ?_, by simp [State.part],
    granting_of_keeps (by simp) (by simp)⟩
  rw [takeView_seg, relimit_of_faulted hp]
  split
  · next e => rw [← e]
  · rfl

theorem undisturbed_evaluate (i : Arm) (s : State) : Undisturbed s (s.evaluate i) := by
  refine ⟨by simp, by simp, fun k _ => ?_, fun hp j => by rw [evaluate_of_faulted hp], by simp [State.part],
    granting_of_keeps (by simp) (by simp)⟩
  rw [State.flagged, State.flagged, (evaluate_keeps i s).2.2.2.2.2.2.2.2.2.1]

theorem undisturbed_releaseReservation (j : Arm) (s : State) : Undisturbed s (s.releaseReservation j) := by
  unfold State.releaseReservation
  refine Undisturbed.trans ?_ (undisturbed_evaluate j _)
  split
  · exact .refl s
  · exact (undisturbed_modSeg j (f := fun g => { g with r := g.r - 1 }) (fun _ => rfl) s).trans (undisturbed_takeView j _ _)

theorem undisturbed_withdrawGrant (id : CarrierId) {s : State} (h : s.granting = false) :
    Undisturbed s (s.withdrawGrant id) := by
  unfold State.withdrawGrant
  split
  · exact .refl s
  · next i _ =>
    split
    · exact .refl s
    · next m _ =>
      dsimp only
      have released := undisturbed_releaseReservation m.exit (s.setMove i (some { m with carriers := dropGranted id m.carriers }))
      generalize State.releaseReservation m.exit _ = u at released
      have released : Undisturbed s u := ⟨released.wkp, released.due, released.flags, released.limits, released.part, released.granting⟩
      split
      · refine released.trans ?_
        unfold State.endMovement
        dsimp only
        generalize hv : ({ u.setMove i none with xu := _ } : State) = v
        have idle : v.granting = false := by
          rw [← h, ← released.granting]
          subst hv
          rfl
        rw [trigger_of_not_granting idle, openTest_of_not_granting idle]
        subst hv
        exact ⟨rfl, rfl, fun _ _ => rfl, fun _ _ => rfl, rfl, rfl⟩
      · exact released

theorem undisturbed_onQueue (i : Arm) (f : List Carrier → List Carrier) {s : State} (h : s.granting = false) :
    Undisturbed s (s.onQueue i f) := by
  have noted : Undisturbed s (State.noteDemand s (s.putQueue i (f (s.queue i)))) := by
    unfold State.noteDemand
    refine List.foldlRecOn (motive := Undisturbed s) Arm.list _ ⟨rfl, rfl, fun _ _ => rfl, fun _ _ => rfl, rfl, rfl⟩
      fun t ht j _ => ?_
    split
    · exact ht
    · exact ht.trans (undisturbed_evaluate j t)
  unfold State.onQueue
  dsimp only
  generalize State.noteDemand s (s.putQueue i (f (s.queue i))) = u at noted
  have idle : u.granting = false := noted.granting.trans h
  rw [trigger_of_not_granting idle, ite_self]
  refine noted.trans ?_
  rcases checkOverdue_cases u with e | e
  · rw [e]
    exact .refl u
  · rw [e]
    unfold State.endOverdue
    split
    · exact .refl u
    · next o _ =>
      dsimp only
      rw [trigger_of_not_granting (by exact idle), ite_self]
      exact ⟨rfl, rfl, fun _ _ => rfl, fun _ _ => rfl, rfl, rfl⟩

theorem undisturbed_holdGrants {s : State} (h : s.granting = false) : Undisturbed s s.holdGrants := by
  unfold State.holdGrants
  refine List.foldlRecOn (motive := Undisturbed s) Arm.list _ (.refl s) fun t ht i _ => ?_
  split
  · exact ht
  · refine List.foldlRecOn (motive := Undisturbed s) _ _ ht fun u hu e _ => ?_
    unfold State.holdEntryGrant
    split
    · refine hu.trans ?_
      have idle := hu.granting.trans h
      have withdrawn := undisturbed_withdrawGrant e.id idle
      exact withdrawn.trans (undisturbed_onQueue i _ (withdrawn.granting.trans idle))
    · exact hu

/-! ### What withdrawing grants does while no designation stands -/

/-- From `s` to `t` grants have been withdrawn: records have changed in place, and cells have been vacated. -/
structure Vacates (s t : State) : Prop where
  overdue : t.jar.overdue = none
  scu : t.scu = s.scu
  hld : t.hld = s.hld
  ids : ∀ i, (t.queue i).map Carrier.id = (s.queue i).map Carrier.id
  sends : t.aqu.sends = s.aqu.sends
  unmatched : t.xu.unmatched = s.xu.unmatched
  cells : ∀ k, t.cell k = s.cell k ∨ t.cell k = s.vacated

theorem Vacates.refl {s : State} (h : s.jar.overdue = none) : Vacates s s :=
  ⟨h, rfl, rfl, fun _ => rfl, rfl, rfl, fun _ => .inl rfl⟩

theorem vacated_of_keeps {s t : State} (hscu : t.scu = s.scu) (hhld : t.hld = s.hld) : t.vacated = s.vacated := by
  rw [State.vacated, State.vacated, State.heldForCarrier, State.heldForCarrier, State.part, State.part, hscu, hhld]

theorem Vacates.trans {s t u : State} (h : Vacates s t) (h' : Vacates t u) : Vacates s u := by
  refine ⟨h'.overdue, h'.scu.trans h.scu, h'.hld.trans h.hld, fun i => (h'.ids i).trans (h.ids i), h'.sends.trans h.sends,
    h'.unmatched.trans h.unmatched, fun k => ?_⟩
  rcases h'.cells k with e | e
  · rw [e]
    exact h.cells k
  · rw [e, vacated_of_keeps h.scu h.hld]
    exact .inr rfl

theorem vacates_withdrawGrant (id : CarrierId) {s : State} (h : s.jar.overdue = none) : Vacates s (s.withdrawGrant id) := by
  cases found : s.grantOf id with
  | none =>
    rw [withdrawGrant_none found]
    exact .refl h
  | some i =>
    obtain ⟨m, hm, -⟩ := move_of_grantOf found
    obtain ⟨-, cells, -, -, unmatched, -, -, -, aqu, overdue⟩ := withdrawGrant_does found hm
    refine ⟨overdue.trans h, by simp, by simp, fun i => by rw [State.queue, aqu]; rfl, by rw [aqu], unmatched, fun k => ?_⟩
    rw [cells, releasedCell_of_none h]
    split
    · exact .inr rfl
    · exact .inl rfl

theorem vacates_onRecord (i : Arm) (id : CarrierId) {f : Carrier → Carrier} (hf : ∀ c, (f c).id = c.id) {s : State}
    (h : s.jar.overdue = none) : Vacates s (s.onRecord i id f) := by
  obtain ⟨overdue, xu, aqu⟩ := onQueue_none h i (updateRecord id f)
  refine ⟨overdue, by simp, by simp, fun j => ?_, by rw [State.onRecord, aqu], by rw [State.onRecord, xu], fun k => ?_⟩
  · rw [State.onRecord, onQueue_ids]
    split
    · next e => rw [updateRecord_ids _ _ hf, e]
    · rfl
  · rw [State.cell, State.onRecord, xu]
    exact .inl rfl

theorem vacates_holdGrants {s : State} (h : s.jar.overdue = none) : Vacates s s.holdGrants := by
  unfold State.holdGrants
  refine List.foldlRecOn (motive := Vacates s) Arm.list _ (.refl h) fun t ht i _ => ?_
  split
  · exact ht
  · refine List.foldlRecOn (motive := Vacates s) _ _ ht fun u hu e _ => ?_
    unfold State.holdEntryGrant
    split
    · have withdrawn := vacates_withdrawGrant e.id hu.overdue
      exact (hu.trans withdrawn).trans (vacates_onRecord i e.id (fun c => (toWaiting_unseats c).1) withdrawn.overdue)
    · exact hu

/-! ### CLEARANCEs for every queued record -/

theorem withClearances_congr {q q' : List Carrier} (h : q'.map Carrier.id = q.map Carrier.id) (l : List SendItem) :
    withClearances q' l = withClearances q l := by
  have byIds : ∀ (q : List Carrier), withClearances q l = (q.map Carrier.id).foldl (fun l id => withClearance id l) l :=
    fun q => by rw [List.foldl_map, withClearances]
  rw [byIds, byIds, h]

theorem quad_set_set {α : Type} (q : Quad α) (i : Arm) (a b : α) : (q.set i a).set i b = q.set i b :=
  Quad.ext_get fun j => by
    rw [Quad.get_set, Quad.get_set, Quad.get_set]
    split <;> rfl

theorem clearances_eq (i : Arm) (q : List Carrier) (s : State) :
    q.foldl (fun u c => u.clearanceDue i c.id) s
      = { s with aqu := { s.aqu with sends := s.aqu.sends.set i (withClearances q (s.aqu.sends.get i)) } } := by
  induction q generalizing s with
  | nil => simp [withClearances]
  | cons c q ih =>
    rw [List.foldl_cons, ih, clearanceDue_eq]
    simp [withClearances, quad_set_set]

/-- A CLEARANCE falls due for every queued record, and nothing else changes (R156, step 4). -/
theorem clearanceAll_eq (s : State) : s.clearanceAll = { s with aqu := { s.aqu with
    sends := .build fun i => withClearances (s.queue i) (s.aqu.sends.get i) } } := by
  unfold State.clearanceAll
  simp only [clearances_eq]
  rfl

end Sys2Proof.Machine

namespace Sys2Proof.Machine

/-! ### Steps 3 to 5 of hold entry -/

/-- Steps 3 to 5 of hold entry: grants are withdrawn, a CLEARANCE falls due for every record, the walkway is closed (R156). -/
def State.withdrawAll (s : State) : State := s.holdGrants.clearanceAll.suspendWalkway

/-- The walkway as hold entry leaves it (R149). -/
def Wkp.suspended (w : Wkp) : Wkp := { w with state := .closed, interval := .stopped, clearance := .stopped, opening := .stopped }

/-- What steps 3 to 5 of hold entry do, and what they leave alone. -/
structure WithdrawsAll (s t : State) : Prop where
  scu : t.scu = s.scu
  closures : t.closures = s.closures
  nbrs : t.nbrs = s.nbrs
  fli : t.fli = s.fli
  hld : t.hld = s.hld
  now : t.now = s.now
  wkp : t.wkp = s.wkp.suspended
  due : t.jar.due = s.jar.due
  overdue : t.jar.overdue = none
  flags : ∀ k, k ≠ .countInconsistent → t.flagged k = s.flagged k
  limits : s.part = .faulted → ∀ i, (t.seg i).limit = (s.seg i).limit
  ids : ∀ i, (t.queue i).map Carrier.id = (s.queue i).map Carrier.id
  sends : ∀ i, t.aqu.sends.get i = withClearances (s.queue i) (s.aqu.sends.get i)
  unmatched : t.xu.unmatched = s.xu.unmatched
  cells : ∀ k, t.cell k = s.cell k ∨ t.cell k = s.vacated
  held : GrantLaw s → CrossingLaw s → GrantsHeld s t

theorem withdrawAll_does {s : State} (idle : s.granting = false) (clear : s.jar.overdue = none) :
    WithdrawsAll s s.withdrawAll := by
  have quiet := undisturbed_holdGrants idle
  have vacates := vacates_holdGrants clear
  have eq : s.withdrawAll = { s.holdGrants with
      aqu := { s.holdGrants.aqu with
        sends := .build fun i => withClearances (s.holdGrants.queue i) (s.holdGrants.aqu.sends.get i) }
      wkp := s.holdGrants.wkp.suspended } := by
    rw [State.withdrawAll, clearanceAll_eq]
    rfl
  obtain ⟨scu, closures, nbrs, fli, hld, now, -⟩ := holdGrants_keeps s
  rw [eq]
  refine ⟨scu, closures, nbrs, fli, hld, now, congrArg Wkp.suspended quiet.wkp, quiet.due, vacates.overdue, quiet.flags,
    quiet.limits, vacates.ids, fun i => ?_, vacates.unmatched, vacates.cells, fun hs hc => ?_⟩
  · rw [Quad.get_build, withClearances_congr (vacates.ids i), vacates.sends]
  · exact grantsHeld_holdGrants hs hc clear

/-- Hold entry reads no more of a state than its grants: another state with the same GRANTED records and movement records
serves as well. -/
theorem GrantsHeld.of_granted {s u t : State} (h : GrantsHeld u t) (hs : GrantLaw s) (hu : GrantLaw u) (cfg : u.cfg = s.cfg)
    (moves : ∀ i, u.move i = s.move i) (reservations : ∀ i, (u.seg i).r = (s.seg i).r)
    (kept : ∀ i, ∀ c ∈ s.queue i, c.state = .granted → c ∈ u.queue i) : GrantsHeld s t := by
  have keeps : ∀ i m, s.move i = some m → ∀ e ∈ m.carriers, u.keepsEntry i e = s.keepsEntry i e := fun i m hm e he => by
    unfold State.keepsEntry
    cases hg : e.status.isGranted with
    | false => rfl
    | true =>
      obtain ⟨c, hc, hid, hst, -⟩ := hs.2.2.1 i m hm e he hg
      rw [State.entryCommitted, State.entryCommitted, ← hid, recordOn_of_mem hs hc, recordOn_of_mem hu (kept i c hc hst), cfg]
  obtain ⟨hmoves, hres, hrec⟩ := h
  refine ⟨fun i => ?_, fun i m hm => ?_, fun i c hc hst => ?_⟩
  · rw [hmoves, moves]
    cases hm : s.move i with
    | none => rfl
    | some m => exact keeping_congr (keeps i m hm)
  · rw [hres i m ((moves i).trans hm), reservations,
      List.filter_congr fun e he => congrArg Bool.not (keeps i m hm e he)]
  · rw [hrec i c (kept i c hc hst) hst, cfg]

/-- What is read of hold entry's outcome. -/
theorem GrantsHeld.of_outcome {s t t' : State} (h : GrantsHeld s t) (moves : ∀ i, t'.move i = t.move i)
    (reservations : ∀ i, (t'.seg i).r = (t.seg i).r) (queues : ∀ i, t'.queue i = t.queue i) : GrantsHeld s t' := by
  obtain ⟨hmoves, hres, hrec⟩ := h
  refine ⟨fun i => (moves i).trans (hmoves i), fun i m hm => (reservations m.exit).trans (hres i m hm), fun i c hc hst => ?_⟩
  rw [State.recordOn, queues]
  exact hrec i c hc hst

/-- A GRANTED record stays as it is when the designation ends, which is for a WAITING one (R85). -/
theorem endOverdue_granted {s : State} (hs : GrantLaw s) (hq : QueueLaw s) {i : Arm} {c : Carrier} (hc : c ∈ s.queue i)
    (hst : c.state = .granted) : c ∈ s.endOverdue.queue i := by
  rw [(endOverdue_does s).2.1 i]
  split
  · exact hc
  · next o ho =>
    split
    · next e =>
      obtain ⟨h, hh, hid, waits, -⟩ := hq.2 o ho
      have hmem := mem_queue_of_head hh
      refine mem_updateRecord_other hc fun same => ?_
      have : c = h := (((grantLaw_iff s).mp hs).1.eq_of_id (e ▸ hc) hmem (same.trans hid.symm)).2
      rw [this, waits] at hst
      cases hst
    · exact hc

/-- Under the law of the crossing no cell changes that names no holder. -/
theorem holdGrants_unheld {s : State} (hc : CrossingLaw s) (clear : s.jar.overdue = none) {k : Arm}
    (unheld : ∀ i, s.cell k ≠ .held i) : s.holdGrants.cell k = s.cell k := by
  have withdraw : ∀ (id : CarrierId) (u : State), CrossingLaw u → u.cell k = s.cell k → (u.withdrawGrant id).cell k = s.cell k := by
    intro id u hu same
    cases found : u.grantOf id with
    | none => rwa [withdrawGrant_none found]
    | some i =>
      obtain ⟨m, hm, -⟩ := move_of_grantOf found
      obtain ⟨-, cells, -⟩ := withdrawGrant_does found hm
      rw [cells, if_neg]
      · exact same
      · exact fun inside => unheld i (same ▸ (hu.1 i m hm).2.2 k inside.2)
  have all : CrossingLaw s.holdGrants ∧ s.holdGrants.jar.overdue = none ∧ s.holdGrants.cell k = s.cell k := by
    refine List.foldlRecOn (motive := fun u => CrossingLaw u ∧ u.jar.overdue = none ∧ u.cell k = s.cell k) Arm.list _
      ⟨hc, clear, rfl⟩ fun t ht i _ => ?_
    split
    · exact ht
    · refine List.foldlRecOn (motive := fun u => CrossingLaw u ∧ u.jar.overdue = none ∧ u.cell k = s.cell k) _ _ ht
        fun u hu e _ => ?_
      refine ⟨law_holdEntryGrant i e hu.1, ?_⟩
      unfold State.holdEntryGrant
      split
      · have none' := (vacates_withdrawGrant e.id hu.2.1).overdue
        obtain ⟨overdue, xu, -⟩ := onQueue_none none' i (updateRecord e.id Carrier.toWaiting)
        refine ⟨overdue, ?_⟩
        rw [State.cell, State.onRecord, xu]
        exact withdraw e.id u hu.1 hu.2.2
      · exact hu.2
  exact all.2.2

/-! ### Hold entry from its cause -/

/-- Hold entry (R156), for a carrier or not; so too the entry into FAULTED (R161). -/
def State.holdFrom (emergency : Bool) (s : State) : State :=
  (if emergency then s.endOverdue.dropRound.mapCells Cell.toEmergency else s.endOverdue.dropRound).withdrawAll

/-- What hold entry does, and what it leaves alone. -/
structure HoldsFrom (emergency : Bool) (s t : State) : Prop where
  scu : t.scu = s.scu
  closures : t.closures = s.closures
  nbrs : t.nbrs = s.nbrs
  fli : t.fli = s.fli
  hld : t.hld = s.hld
  wkp : t.wkp = s.wkp.suspended
  due : t.jar.due = false
  overdue : t.jar.overdue = none
  flags : ∀ k, k ≠ .countInconsistent → t.flagged k = s.flagged k
  limits : s.part = .faulted → ∀ i, (t.seg i).limit = (s.seg i).limit
  ids : ∀ i, (t.queue i).map Carrier.id = (s.queue i).map Carrier.id
  sends : ∀ i, t.aqu.sends.get i = withClearances (s.queue i) (s.aqu.sends.get i)
  unmatched : t.xu.unmatched = s.xu.unmatched
  closed : emergency = true → ∀ k, t.cell k ≠ .free ∧ ∀ id, t.cell k ≠ .reserved id
  unknown : CrossingLaw s → ∀ k, s.cell k = .unknown → t.cell k = .unknown
  opened : emergency = false → ∀ k, s.cell k ≠ .emergency → t.cell k ≠ .emergency
  unreserved : emergency = false → ∀ o k, s.jar.overdue = some o → s.cell k = .reserved o.id → t.cell k = .free
  held : CrossingLaw s → QueueLaw s → GrantLaw s → GrantsHeld s t

/-- The states that hold entry passes through on the way to step 3: the designation and the round due are gone, and the cells
are EMERGENCY where the cause is a carrier's. -/
def State.holdStart (emergency : Bool) (s : State) : State :=
  if emergency then s.endOverdue.dropRound.mapCells Cell.toEmergency else s.endOverdue.dropRound

theorem holdStart_keeps (emergency : Bool) (s : State) :
    (s.holdStart emergency).scu = s.scu ∧ (s.holdStart emergency).closures = s.closures
    ∧ (s.holdStart emergency).nbrs = s.nbrs ∧ (s.holdStart emergency).fli = s.fli ∧ (s.holdStart emergency).hld = s.hld
    ∧ (s.holdStart emergency).wkp = s.wkp ∧ (s.holdStart emergency).mtp = s.mtp ∧ (s.holdStart emergency).segs = s.segs
    ∧ (s.holdStart emergency).aqu = s.endOverdue.aqu ∧ (s.holdStart emergency).jar.due = false
    ∧ (s.holdStart emergency).jar.overdue = none ∧ (s.holdStart emergency).xu.moves = s.xu.moves
    ∧ (s.holdStart emergency).xu.unmatched = s.xu.unmatched
    ∧ ∀ k, (s.holdStart emergency).cell k = if emergency then (s.endOverdue.cell k).toEmergency else s.endOverdue.cell k := by
  obtain ⟨overdue, -, -, moves, unmatched, -⟩ := endOverdue_does s
  obtain ⟨scu, closures, segs, nbrs, fli, wkp, hld, mtp, -⟩ := endOverdue_keeps s
  cases emergency with
  | false => exact ⟨scu, closures, nbrs, fli, hld, wkp, mtp, segs, rfl, rfl, overdue, moves, unmatched, fun _ => rfl⟩
  | true =>
    exact ⟨scu, closures, nbrs, fli, hld, wkp, mtp, segs, rfl, rfl, overdue, moves, unmatched, fun k => cell_mapCells _ k _⟩

/-- No cell is FREE or RESERVED that has been made EMERGENCY or named its holder. -/
theorem toEmergency_closed (c : Cell) : c.toEmergency ≠ .free ∧ ∀ id, c.toEmergency ≠ .reserved id := by
  cases c <;> simp [Cell.toEmergency]

/-- Where the designation ends, its cells become FREE, and no other changes. -/
theorem endOverdue_cell (s : State) (k : Arm) : s.endOverdue.cell k = s.cell k
    ∨ s.endOverdue.cell k = .free ∧ ∃ o, s.jar.overdue = some o ∧ s.cell k = .reserved o.id := by
  rw [(endOverdue_does s).2.2.1 k]
  cases s.jar.overdue with
  | none => exact .inl rfl
  | some o =>
    dsimp only
    cases s.cell k with
    | reserved id =>
      by_cases e : id = o.id
      · exact .inr ⟨by simp [Cell.unreserve, e], o, rfl, by rw [e]⟩
      · exact .inl (by simp [Cell.unreserve, e])
    | _ => exact .inl rfl

theorem grantLaw_holdStart (emergency : Bool) {s : State} (hs : GrantLaw s) : GrantLaw (s.holdStart emergency) := by
  obtain ⟨scu, -, -, -, -, -, -, -, aqu, -, -, moves, -⟩ := holdStart_keeps emergency s
  refine hs.of_match moves (by simp [State.part, scu]) (((grantLaw_iff s).mp hs).1.of_faces fun i => ?_)
  rw [← endOverdue_faces i s, State.queue, aqu]
  rfl

theorem law_holdStart (emergency : Bool) {s : State} (hs : CrossingLaw s) : CrossingLaw (s.holdStart emergency) := by
  cases emergency with
  | false => exact law_dropDesignation hs
  | true => exact law_toEmergency (law_dropDesignation hs)

/-- Hold entry where nothing is granted any more: `emergency` for a cause of a carrier and in FAULTED. -/
theorem holdFrom_does {emergency : Bool} {s : State} (idle : s.granting = false)
    (cause : emergency = (s.heldForCarrier || s.part == .faulted)) : HoldsFrom emergency s (s.holdFrom emergency) := by
  obtain ⟨scu, closures, nbrs, fli, hld, wkp, mtp, segs, aqu, due, overdue, moves, unmatched, cells⟩ := holdStart_keeps emergency s
  have does := withdrawAll_does ((granting_of_keeps scu hld).trans idle) overdue
  have vacated : (s.holdStart emergency).vacated = if emergency then .emergency else .free := by
    rw [vacated_of_keeps scu hld, State.vacated, cause]
  have eq : s.holdFrom emergency = (s.holdStart emergency).withdrawAll := rfl
  have ids : ∀ i, ((s.holdStart emergency).queue i).map Carrier.id = (s.queue i).map Carrier.id := fun i => by
    rw [State.queue, aqu]
    exact GrantsMatch.ids_of_faces (endOverdue_faces i s)
  rw [eq]
  refine
    { scu := does.scu.trans scu, closures := does.closures.trans closures, nbrs := does.nbrs.trans nbrs
      fli := does.fli.trans fli, hld := does.hld.trans hld, wkp := does.wkp.trans (congrArg _ wkp)
      due := does.due.trans due, overdue := does.overdue, flags := fun k hk => (does.flags k hk).trans ?_
      limits := fun hp i => (does.limits ?_ i).trans ?_, ids := fun i => (does.ids i).trans (ids i)
      sends := fun i => (does.sends i).trans ?_, unmatched := does.unmatched.trans unmatched
      closed := fun he k => ?_, unknown := fun hc k hk => ?_, opened := fun he k hk => ?_
      unreserved := fun he o k ho hk => ?_, held := fun hc hq hs => ?_ }
  · rw [State.flagged, mtp, State.flagged]
  · rw [State.part, scu]
    exact hp
  · rw [State.seg, segs, State.seg]
  · rw [withClearances_congr (ids i), aqu, (endOverdue_does s).2.2.2.2.2.2.2.2.1]
  · rcases does.cells k with e | e
    · rw [e, cells, if_pos he]
      exact toEmergency_closed _
    · rw [e, vacated, if_pos he]
      simp
  · have start : (s.holdStart emergency).cell k = .unknown := by
      have same : s.endOverdue.cell k = .unknown := by
        rcases endOverdue_cell s k with e | ⟨-, o, -, e⟩
        · rw [e, hk]
        · rw [hk] at e
          cases e
      rw [cells, same]
      split <;> rfl
    have kept := holdGrants_unheld (law_holdStart emergency hc) overdue (k := k) fun i e => by rw [start] at e; cases e
    rw [← start, ← kept, State.withdrawAll, clearanceAll_eq]
    rfl
  · rcases does.cells k with e | e
    · rw [e, cells, if_neg (by simp [he])]
      rcases endOverdue_cell s k with e | ⟨e, -⟩
      · rwa [e]
      · rw [e]
        simp
    · rw [e, vacated, if_neg (by simp [he])]
      simp
  · have start : (s.holdStart emergency).cell k = .free := by
      rw [cells, if_neg (by simp [he]), (endOverdue_does s).2.2.1 k, ho, hk]
      simp [Cell.unreserve]
    rcases does.cells k with e | e
    · rw [e, start]
    · rw [e, vacated, if_neg (by simp [he])]
  · refine (does.held (grantLaw_holdStart emergency hs) (law_holdStart emergency hc)).of_granted hs
      (grantLaw_holdStart emergency hs) (by rw [State.cfg, scu, State.cfg]) (fun i => by rw [State.move, moves, State.move])
      (fun i => by rw [State.seg, segs, State.seg]) fun i c hc' hst => ?_
    rw [State.queue, aqu]
    exact endOverdue_granted hs hq hc' hst

end Sys2Proof.Machine

namespace Sys2Proof.Machine

/-! ### Entry into FAULTED -/

/-- FAULTED before its hold entry: the limits closed, the part state changed, the start-up timers and the settle timer stopped
(R98, R161, R170, R171). -/
def State.faultedStart (s : State) : State :=
  let s := if s.part == .listening then s.startReports else s
  let s := s.closeLimits.setPart .faulted
  let s := { s with scu := { s.scu with listening := .stopped, crossingQuiet := .stopped } }
  s.modHld fun h => { h with settle := .stopped }

theorem enterFaulted_eq {s : State} (h : s.part ≠ .faulted) : s.enterFaulted = s.faultedStart.holdFrom true :=
  if_neg (by simpa using h)

theorem enterFaulted_of_faulted {s : State} (h : s.part = .faulted) : s.enterFaulted = s := if_pos (by simp [h])

/-- Whether a limit is open is a matter of the configuration, the part state and the record. -/
theorem limitOpen_congr {s u : State} (cfg : u.cfg = s.cfg) (part : u.part = s.part) (i : Arm) (g : SegEnd) :
    u.limitOpen i g = s.limitOpen i g := by
  rw [State.limitOpen, State.limitOpen, State.role, State.role, State.arm, State.arm, cfg, part]

theorem faultedStart_keeps (s : State) :
    s.faultedStart.scu = { s.scu with part := .faulted, listening := .stopped, crossingQuiet := .stopped }
    ∧ s.faultedStart.closures = s.closures ∧ s.faultedStart.nbrs = s.nbrs ∧ s.faultedStart.wkp = s.wkp
    ∧ s.faultedStart.mtp = s.mtp ∧ s.faultedStart.aqu = s.aqu ∧ s.faultedStart.xu = s.xu ∧ s.faultedStart.jar = s.jar
    ∧ s.faultedStart.hld = { s.hld with settle := .stopped }
    ∧ ∀ i, s.faultedStart.seg i
        = if s.limitOpen i (s.seg i) then { s.seg i with limit := (s.seg i).farCommitted } else s.seg i := by
  have closes : ∀ u : State, u.scu = s.scu → u.segs = s.segs → ∀ i, u.closeLimits.seg i
      = if s.limitOpen i (s.seg i) then { s.seg i with limit := (s.seg i).farCommitted } else s.seg i := by
    intro u hscu hsegs i
    have seg : ∀ i, u.seg i = s.seg i := fun i => by rw [State.seg, hsegs, State.seg]
    have built : u.closeLimits.seg i
        = if u.limitOpen i (u.seg i) then { u.seg i with limit := (u.seg i).farCommitted } else u.seg i := Quad.get_build _ i
    rw [built, seg, limitOpen_congr (congrArg Scu.cfg hscu) (congrArg Scu.part hscu)]
  unfold State.faultedStart
  dsimp only
  split
  · exact ⟨rfl, rfl, rfl, rfl, rfl, rfl, rfl, rfl, rfl, closes _ rfl rfl⟩
  · exact ⟨rfl, rfl, rfl, rfl, rfl, rfl, rfl, rfl, rfl, closes _ rfl rfl⟩

theorem faultedStart_does {s : State} (h : s.part ≠ .faulted) : HoldsFrom true s.faultedStart s.enterFaulted := by
  obtain ⟨scu, -⟩ := faultedStart_keeps s
  have faulted : s.faultedStart.part = .faulted := by rw [State.part, scu]
  rw [enterFaulted_eq h]
  exact holdFrom_does (by simp [State.granting, faulted]) (by simp [faulted])

/-- In FAULTED no segment end admits. -/
theorem admits_of_faulted {s : State} (h : s.part = .faulted) (i : Arm) : s.admits i = false := by
  simp [State.admits, h]

theorem goLamp_of_faulted {s : State} (h : s.part = .faulted) (i : Arm) : s.goLamp i = false := by
  simp [State.goLamp, h]

/-- The limit of a segment end after an event is what its effect has left. -/
theorem finish_seg_limit (old s : State) (i : Arm) : ((State.finish old s).seg i).limit = (s.seg i).limit :=
  (finish_counts old s i).2.2.2.2.2.2.2.2.2.2.2.2.2.2.2.1

/-- The state `p`, from which FAULTED is entered, is `s` in all that a fault's own event does not change. -/
structure FaultOf (s p : State) : Prop where
  cfg : p.cfg = s.cfg
  part : p.part = s.part
  closures : p.closures = s.closures
  nbrs : p.nbrs = s.nbrs
  wkp : p.wkp = s.wkp
  hld : p.hld = s.hld
  aqu : p.aqu = s.aqu
  xu : p.xu = s.xu
  jar : p.jar = s.jar
  segs : p.segs = s.segs

/-- What FAULTED is like at the end of the event that enters it. -/
structure EntersFaulted (s p t : State) : Prop where
  scu : t.scu = { p.scu with part := .faulted, listening := .stopped, crossingQuiet := .stopped }
  flags : ∀ k, k ≠ .countInconsistent → t.flagged k = p.flagged k
  closed : ∀ k, t.cell k ≠ .free ∧ ∀ id, t.cell k ≠ .reserved id
  unknown : CrossingLaw s → ∀ k, s.cell k = .unknown → t.cell k = .unknown
  limits : ∀ i, s.limitOpen i (s.seg i) = true → (t.seg i).limit = (s.seg i).eN + BitVec.ofNat 8 (s.seg i).rN
  due : t.jar.due = false
  overdue : t.jar.overdue = none
  hld : t.hld = { s.hld with settle := .stopped }
  wkp : t.wkp = s.wkp.suspended
  held : CrossingLaw s → QueueLaw s → GrantLaw s → GrantsHeld s t
  sends : ∀ i, t.aqu.sends.get i = withClearances (s.queue i) (s.aqu.sends.get i)
  closures : t.closures = s.closures
  nbrs : t.nbrs = s.nbrs

theorem entersFaulted_finish {s p : State} (h : FaultOf s p) (new : s.part ≠ .faulted) :
    EntersFaulted s p (State.finish s p.enterFaulted) := by
  have new' : p.part ≠ .faulted := h.part ▸ new
  obtain ⟨scu, closures, nbrs, wkp, mtp, aqu, xu, jar, hld, seg⟩ := faultedStart_keeps p
  have does := faultedStart_does new'
  obtain ⟨tscu, taqu, tclosures, txu, tnbrs, twkp, tmtp, -⟩ := finish_keeps s p.enterFaulted
  have faulted : p.enterFaulted.part = .faulted := by rw [State.part, does.scu, scu]
  have start : p.faultedStart.part = .faulted := by rw [State.part, scu]
  have cell : ∀ k, (State.finish s p.enterFaulted).cell k = p.enterFaulted.cell k := fun k => by rw [State.cell, txu, State.cell]
  refine
    { scu := (tscu.trans does.scu).trans scu, flags := fun k hk => ?_, closed := fun k => ?_, unknown := fun hc k hk => ?_
      limits := fun i opened => ?_, due := ?_, overdue := ?_, hld := ?_, wkp := ?_, held := fun hc hq hs => ?_
      sends := fun i => ?_, closures := ?_, nbrs := ?_ }
  · rw [State.flagged, tmtp, ← State.flagged, does.flags k hk, State.flagged, mtp, State.flagged]
  · rw [cell]
    exact does.closed rfl k
  · rw [cell]
    exact does.unknown (hc.xu (xu.trans h.xu)) k (by rw [State.cell, xu, h.xu]; exact hk)
  · have here : p.seg i = s.seg i := by rw [State.seg, h.segs, State.seg]
    rw [finish_seg_limit, does.limits start, seg, here, limitOpen_congr h.cfg h.part, if_pos opened]
    rfl
  · rw [finish_due, does.due]
    simp [State.granting, faulted]
  · rw [(finish_causes s _).1, does.overdue]
  · rw [finish_hld, releaseTest_hld_of_not (by simp [faulted]), does.hld, hld, h.hld]
  · rw [twkp, does.wkp, wkp, h.wkp]
  · have queue : ∀ i, p.faultedStart.queue i = s.queue i := fun i => by rw [State.queue, aqu, h.aqu, State.queue]
    have moves : p.faultedStart.xu.moves = s.xu.moves := by rw [xu, h.xu]
    have law : GrantLaw p.faultedStart := hs.of_match moves (fun _ => .inr start)
      ((funext queue : p.faultedStart.queue = s.queue) ▸ ((grantLaw_iff s).mp hs).1)
    have queueLaw : QueueLaw p.faultedStart := hq.of_keeps (by rw [aqu, h.aqu]) (by rw [jar, h.jar])
    refine ((does.held (hc.xu (xu.trans h.xu)) queueLaw law).of_granted hs law ?_ (fun i => ?_) (fun i => ?_)
      fun i c hcq _ => queue i ▸ hcq).of_outcome (fun i => ?_) (fun i => ?_) fun i => ?_
    · rw [State.cfg, scu]
      exact h.cfg
    · rw [State.move, moves, State.move]
    · rw [seg, State.seg, h.segs, ← State.seg]
      split <;> rfl
    · rw [State.move, txu, State.move]
    · exact (finish_counts s _ i).2.2.1
    · rw [State.queue, taqu, State.queue]
  · rw [taqu, does.sends, State.queue, aqu, h.aqu, State.queue]
  · rw [tclosures, does.closures, closures, h.closures]
  · rw [tnbrs, does.nbrs, nbrs, h.nbrs]

end Sys2Proof.Machine

namespace Sys2Proof.Machine

/-! ### The faults -/

/-- The state at a clock loss, before FAULTED (R169). -/
def State.clockLost (s : State) : State :=
  (s.modScu fun u => { u with onReference := false, monitor := false }).raise .clockLoss

/-- The state at a re-check that does not agree, before FAULTED (R174). -/
def State.recheckFailed (s : State) : State := (s.modScu fun u => { u with recheck := .stopped }).raise .configFault

/-- The state at an address clash by a frame, before FAULTED (R127). -/
def State.clashed (frame : GoodFrame) (s : State) : State := (s.modRx (Receiver.handOver frame)).raise .addressClash

theorem does_clockLoss {s : State} (released : s.scu.rstHeld = false) (working : s.part.working = true)
    (onReference : s.scu.onReference = true) (monitor : s.scu.monitor = true) :
    Does .clockLoss s s.clockLost.enterFaulted := by
  show Host.Outcome.next (s.event _) = _
  rw [event_of_released released, if_pos (by simp [working, onReference, monitor])]
  rfl

theorem configIntact_iff (s : State) : s.configIntact = true ↔ s.scu.cfgCrc = some (Layout.crc16 (Image.body s.cfg)) := by
  simp [State.configIntact, Image.crc]

theorem does_recheckExpiry_failed {s : State} (released : s.scu.rstHeld = false) (runs : s.scu.recheck.isRunning = true)
    (differs : s.scu.cfgCrc ≠ some (Layout.crc16 (Image.body s.cfg))) :
    Does .recheckExpiry s s.recheckFailed.enterFaulted := by
  show Host.Outcome.next (s.event _) = _
  rw [event_of_released released, if_pos runs, if_neg fun h => differs ((configIntact_iff s).mp h)]
  rfl

theorem does_recheckExpiry_agreed {s : State} (released : s.scu.rstHeld = false) (runs : s.scu.recheck.isRunning = true)
    (agrees : s.scu.cfgCrc = some (Layout.crc16 (Image.body s.cfg))) :
    Does .recheckExpiry s { s with scu := { s.scu with recheck := .running 0 } } := by
  show Host.Outcome.next (s.event _) = _
  rw [event_of_released released, if_pos runs, if_pos ((configIntact_iff s).mpr agrees)]
  rfl

/-- A foreign frame with the node's own address clashes (R127). -/
theorem sortFrame_clash {s : State} {sender : Byte} (clash : sender.toNat = s.cfg.nodeAddress) (take : Arm → State → State) :
    s.sortFrame sender false take = (s.raise .addressClash).enterFaulted := by
  unfold State.sortFrame
  rw [if_pos clash]
  rfl

theorem does_floorReport_clash {s : State} {f : FloorReport} (released : s.scu.rstHeld = false)
    (working : s.part.working = true) (clash : f.sender.toNat = s.cfg.nodeAddress) :
    Does (.floorReportReceived f false) s (s.clashed (.report f false)).enterFaulted := by
  show Host.Outcome.next (s.event _) = _
  rw [event_of_released released, if_pos working, sortFrame_clash (by exact clash)]
  rfl

theorem does_reportRequest_clash {s : State} {f : ReportRequest} (released : s.scu.rstHeld = false)
    (working : s.part.working = true) (clash : f.sender.toNat = s.cfg.nodeAddress) :
    Does (.reportRequestReceived f false) s (s.clashed (.request f false)).enterFaulted := by
  show Host.Outcome.next (s.event _) = _
  rw [event_of_released released, if_pos working, sortFrame_clash (by exact clash)]
  rfl

/-- Settles O12. -/
theorem entryIntoFaulted : Obligations.EntryIntoFaulted := by
  refine ⟨fun s released faulted => ?_, fun s released working new => ⟨fun c k fault => ?_, fun runs agrees => ?_⟩⟩
  · have working : s.part.working = true := by rw [faulted]; rfl
    refine ⟨fun onReference monitor => ?_, fun runs differs => ?_, fun runs agrees => ?_, fun f clash => ?_, fun f clash => ?_⟩
    · have := does_clockLoss released working onReference monitor
      rwa [enterFaulted_of_faulted (by exact faulted)] at this
    · have := does_recheckExpiry_failed released runs differs
      rwa [enterFaulted_of_faulted (by exact faulted)] at this
    · exact does_recheckExpiry_agreed released runs agrees
    · have := does_floorReport_clash released working clash
      rwa [enterFaulted_of_faulted (by exact faulted)] at this
    · have := does_reportRequest_clash released working clash
      rwa [enterFaulted_of_faulted (by exact faulted)] at this
  · have enters : ∃ p, Does c s p.enterFaulted ∧ FaultOf s p ∧ k ≠ .countInconsistent ∧ p.flagged k = true
        ∧ p.scu.onReference = (s.scu.onReference && c != .clockLoss) ∧ p.scu.monitor = (s.scu.monitor && c != .clockLoss)
        ∧ p.scu.recheck = (if c = .recheckExpiry then .stopped else s.scu.recheck) ∧ p.scu.epoch = s.scu.epoch := by
      rcases fault with ⟨rfl, rfl, onReference, monitor⟩ | ⟨rfl, rfl, runs, differs⟩ | ⟨rfl, ⟨f, rfl, clash⟩ | ⟨f, rfl, clash⟩⟩
      · refine ⟨s.clockLost, does_clockLoss released working onReference monitor,
          ⟨rfl, rfl, rfl, rfl, rfl, rfl, rfl, rfl, rfl, rfl⟩, nofun, ?_, ?_, ?_, ?_, rfl⟩
        · simp [State.clockLost]
        · simp [State.clockLost, State.modScu]
        · simp [State.clockLost, State.modScu]
        · simp [State.clockLost, State.modScu]
      · refine ⟨s.recheckFailed, does_recheckExpiry_failed released runs differs,
          ⟨rfl, rfl, rfl, rfl, rfl, rfl, rfl, rfl, rfl, rfl⟩, nofun, ?_, ?_, ?_, ?_, rfl⟩
        · simp [State.recheckFailed]
        · simp [State.recheckFailed, State.modScu]
        · simp [State.recheckFailed, State.modScu]
        · simp [State.recheckFailed, State.modScu]
      · refine ⟨s.clashed (.report f false), does_floorReport_clash released working clash,
          ⟨rfl, rfl, rfl, rfl, rfl, rfl, rfl, rfl, rfl, rfl⟩, nofun, ?_, ?_, ?_, ?_, rfl⟩
        · simp [State.clashed]
        · simp [State.clashed]
        · simp [State.clashed]
        · simp [State.clashed]
      · refine ⟨s.clashed (.request f false), does_reportRequest_clash released working clash,
          ⟨rfl, rfl, rfl, rfl, rfl, rfl, rfl, rfl, rfl, rfl⟩, nofun, ?_, ?_, ?_, ?_, rfl⟩
        · simp [State.clashed]
        · simp [State.clashed]
        · simp [State.clashed]
        · simp [State.clashed]
    obtain ⟨p, does, of, notCount, flagged, onReference, monitor, recheck, epoch⟩ := enters
    have t := entersFaulted_finish of new
    have part : (State.finish s p.enterFaulted).part = .faulted := by rw [State.part, t.scu]
    refine ⟨_, does, part, (t.flags k notCount).trans flagged, t.closed, t.unknown, t.limits, t.due, t.overdue, t.hld, t.wkp,
      admits_of_faulted part, goLamp_of_faulted part, ?_, ?_, ?_, ?_, ?_, ?_, t.held, t.sends, ?_, ?_, t.closures, t.nbrs⟩
    · simp [State.beacon, part]
    · rw [t.scu]
    · rw [t.scu]
    · rw [t.scu]
      exact onReference
    · rw [t.scu]
      exact monitor
    · rw [t.scu]
      exact recheck
    · rw [t.scu]
      exact epoch
    · rw [State.cfg, t.scu]
      exact of.cfg
  · exact does_recheckExpiry_agreed released runs agrees

end Sys2Proof.Machine

/-! ## Arm links: the receiver and its messages -/

namespace Sys2Proof.Machine

open Layout

/-! ### The receiver of a link -/

theorem takeRow_of_none {x : LinkReceiver} (h : x.ended = 0) : x.takeRow = .initial := by
  obtain ⟨message, ended⟩ := x
  subst h
  rfl

theorem takeRow_of_succ {x : LinkReceiver} {n : Nat} (h : x.ended = n + 1) : x.takeRow = { x with ended := n } := by
  simp [LinkReceiver.takeRow, h]

/-- The bits of a byte, read from the least significant, give the byte. -/
theorem bits_of_getLsbD (b : Byte) : byte (bits ((List.range 8).map b.getLsbD)) = b := by
  revert b
  decide +kernel

theorem readCharacter_sent (b : Byte) : readCharacter (false :: (List.range 8).map b.getLsbD ++ [true]) = (b, true) := by
  have body : ((false :: (List.range 8).map b.getLsbD ++ [true]).drop 1).take 8 = (List.range 8).map b.getLsbD := by
    simp
  refine Prod.ext ?_ rfl
  rw [readCharacter, body]
  exact bits_of_getLsbD b

theorem linkCharacter_hunting {link : Arm} {s : State} (present : s.present link = true)
    (hunts : (s.aqu.linkRx.get link).message = none) (b : Byte) (ok : Bool) :
    s.linkCharacter link b ok = if ok && b == syncByte then s.readMessage link [b] else s := by
  unfold State.linkCharacter
  rw [if_pos present, hunts]

theorem linkCharacter_reading {link : Arm} {s : State} {l : List Byte} (present : s.present link = true)
    (reads : (s.aqu.linkRx.get link).message = some l) (b : Byte) (ok : Bool) :
    s.linkCharacter link b ok = if ok then s.messageByte link (l ++ [b])
      else s.endMessage link (.armLinkMessageDiscard link) := by
  unfold State.linkCharacter
  rw [if_pos present, reads]

/-! ### The judgement of a message -/

theorem getD_of_getElem? {l : List Byte} {k : Nat} {b : Byte} (h : l[k]? = some b) : l.getD k 0 = b := by
  simp [List.getD, h]

theorem linkLength_other {b : Byte} (h1 : b ≠ 0x11) (h2 : b ≠ 0x12) (h3 : b ≠ 0x13) : linkLength b = none := by
  rw [linkLength, if_neg h1, if_neg h2, if_neg h3]

/-- A message behind its sync byte, with its CRC and with its length, is judged by its kind. -/
theorem judgeMessage_sealed (link : Arm) (body : List Byte) (h : byteAt (sealMessage body) 2 = (sealMessage body).length) :
    judgeMessage link (sealMessage body) = messageCommand link (sealMessage body) := by
  have inner : ((sealMessage body).drop 1).dropLast = body := by simp [sealMessage]
  unfold judgeMessage
  rw [inner, if_pos (by simp [h])]

theorem byteAt_eq_iff {l : List Byte} {k n : Nat} (hk : k < l.length) (hn : n < 256) :
    byteAt l k = n ↔ l[k]? = some (BitVec.ofNat 8 n) := by
  rw [byteAt, List.getD, List.getElem?_eq_getElem hk, Option.getD_some, Option.some_inj, BitVec.toNat_eq, BitVec.toNat_ofNat,
    Nat.mod_eq_of_lt hn]

/-- A message of another length than its length byte says, or whose last byte is not its CRC, is discarded. -/
theorem judgeMessage_discarded {link : Arm} {l : List Byte}
    (h : ∀ body, l = sealMessage body → body[1]? ≠ some (BitVec.ofNat 8 l.length)) (low : 6 ≤ l.length) (high : l.length ≤ 13) :
    judgeMessage link l = .armLinkMessageDiscard link := by
  unfold judgeMessage
  rw [if_neg]
  rw [Bool.and_eq_true, beq_iff_eq, decide_eq_true_eq]
  rintro ⟨length, whole⟩
  refine h _ whole.symm ?_
  have at2 := (byteAt_eq_iff (by omega) (by omega)).mp length
  have inner : 1 < ((l.drop 1).dropLast).length := by
    rw [List.length_dropLast, List.length_drop]
    omega
  have third : l[2]? = ((l.drop 1).dropLast)[1]? := by
    conv_lhs => rw [← whole, sealMessage, List.cons_append, List.getElem?_cons_succ, List.getElem?_append_left inner]
  exact third.symm.trans at2

/-- A two-byte field is read as it has been laid out (R184). -/
theorem two_read (x : Half) : BitVec.ofNat 16 ((x.setWidth 8).toNat + 256 * ((x >>> 8).setWidth 8 : Byte).toNat) = x := by
  apply BitVec.eq_of_toNat_eq
  simp [BitVec.toNat_setWidth, BitVec.toNat_ushiftRight, Nat.shiftRight_eq_div_pow]
  omega

theorem id_read (x : Half) :
    BitVec.ofNat 12 ((x.setWidth 8).toNat + 256 * ((x >>> 8).setWidth 8 : Byte).toNat) = x.setWidth 12 := by
  apply BitVec.eq_of_toNat_eq
  simp [BitVec.toNat_setWidth, BitVec.toNat_ushiftRight, Nat.shiftRight_eq_div_pow]
  omega

theorem quarter_mod (n : Nat) : quarter n = Fin.ofNat 4 (n % 4) := by
  simp [quarter, Fin.ofNat]

/-- The bytes of a two-byte field (R184). -/
def halfBytes (x : Half) : List Byte := [x.setWidth 8, (x >>> 8).setWidth 8]

theorem judgeMessage_announce (link : Arm) (id length d v : Half) (flags : Byte) :
    judgeMessage link (sealMessage ([0x11, 13] ++ halfBytes id ++ [flags] ++ halfBytes length ++ halfBytes d ++ halfBytes v)) =
      .announce link (id.setWidth 12) (Fin.ofNat 4 (flags.toNat % 4)) (flags.getLsbD 2) (Fin.ofNat 4 (flags.toNat / 16 % 4))
        length d v := by
  rw [judgeMessage_sealed link _ rfl]
  refine (if_pos rfl).trans ?_
  exact (Instr.announce.injEq ..).mpr ⟨rfl, id_read id, quarter_mod _, rfl, quarter_mod _, two_read length, two_read d, two_read v⟩

theorem judgeMessage_position (link : Arm) (id d v : Half) :
    judgeMessage link (sealMessage ([0x12, 10] ++ halfBytes id ++ halfBytes d ++ halfBytes v))
      = .position link (id.setWidth 12) d v := by
  rw [judgeMessage_sealed link _ rfl]
  refine (if_neg (show ¬ 18 = 17 by decide)).trans ((if_pos rfl).trans ?_)
  exact (Instr.position.injEq ..).mpr ⟨rfl, id_read id, two_read d, two_read v⟩

theorem judgeMessage_withdraw (link : Arm) (id : Half) :
    judgeMessage link (sealMessage ([0x13, 6] ++ halfBytes id)) = .withdraw link (id.setWidth 12) := by
  rw [judgeMessage_sealed link _ rfl]
  refine (if_neg (show ¬ 19 = 17 by decide)).trans ((if_neg (show ¬ 19 = 18 by decide)).trans ?_)
  exact (Instr.withdraw.injEq ..).mpr ⟨rfl, id_read id⟩

/-! ### What a message does -/

theorem present_huntLink (link i : Arm) (s : State) : (s.huntLink link).present i = s.present i := rfl

theorem heardOn_same (link : Arm) (s : State) : s.heardOn link (s.aqu.sends.get link) = s.huntLink link := by
  simp [State.heardOn, State.huntLink]

theorem heardOn_refusal (link : Arm) (id : CarrierId) (reason : RefusalReason) (s : State) :
    (s.huntLink link).refusalDue link id reason
      = s.heardOn link (withDue (.refusal id reason) (s.aqu.sends.get link)) := refusalDue_eq ..

/-- A message where nothing hears it. -/
theorem onMessage_unheard {link : Arm} {s : State} (h : s.part.working = false ∨ s.present link = false) (id : CarrierId)
    (handle : State → State) : s.onMessage link id handle = s.huntLink link := by
  unfold State.onMessage
  have part : (s.huntLink link).part = s.part := rfl
  dsimp only
  rw [present_huntLink, part]
  rcases h with h | h
  · cases hp : s.part <;> simp_all [PartState.working]
  · simp [h]

theorem onMessage_notReady {link : Arm} {s : State} (present : s.present link = true) (h : s.part = .listening ∨ s.part = .faulted)
    (id : CarrierId) (handle : State → State) :
    s.onMessage link id handle = s.heardOn link (withDue (.refusal id .notReady) (s.aqu.sends.get link)) := by
  unfold State.onMessage
  have part : (s.huntLink link).part = s.part := rfl
  dsimp only
  rw [present_huntLink, part, if_pos present, ← heardOn_refusal]
  rcases h with h | h
  · rw [h]
  · rw [h]

theorem onMessage_handled {link : Arm} {s : State} (present : s.present link = true) (h : s.part = .recovering ∨ s.part = .running)
    (id : CarrierId) (handle : State → State) : s.onMessage link id handle = handle (s.huntLink link) := by
  unfold State.onMessage
  have part : (s.huntLink link).part = s.part := rfl
  dsimp only
  rw [present_huntLink, part, if_pos present]
  rcases h with h | h
  · rw [h]
  · rw [h]

/-- A message of a kind in progress goes on until the length of its kind is complete. -/
theorem messageByte_of_kind {link : Arm} {l : List Byte} {kind : Byte} {n : Nat} (h : l[1]? = some kind)
    (hn : linkLength kind = some n) (s : State) : s.messageByte link l =
      if l.length < n then s.readMessage link l else s.endMessage link (judgeMessage link l) := by
  unfold State.messageByte
  rw [getD_of_getElem? h, hn]
  dsimp only
  by_cases short : l.length < n
  · rw [if_neg (by omega), if_pos short]
  · rw [if_pos (by omega), if_neg short]

/-- Settles O13. -/
theorem messagesByPartState : Obligations.MessagesByPartState := by
  refine ⟨fun x => ⟨takeRow_of_none, fun n => takeRow_of_succ⟩, readCharacter_sent, fun link b ok bitTimes s present => ?_,
    fun link id length d v flags => ⟨judgeMessage_announce .., judgeMessage_position .., judgeMessage_withdraw ..⟩,
    fun link l h low high => judgeMessage_discarded h low high, fun link id s released => ⟨?_, ?_, fun c hc => ⟨?_, ?_⟩⟩⟩
  · refine ⟨fun hunts => ⟨?_, ?_⟩, fun reads => ⟨fun broken => ?_, ?_⟩, fun l reads full whole => ⟨?_, ?_, ?_, ?_⟩⟩
    · rw [linkCharacter_hunting present hunts]
      simp [syncByte, State.readMessage, State.setLinkRx]
    · simp [State.linkRest, hunts]
    · obtain ⟨l, reads⟩ := Option.ne_none_iff_exists'.mp reads
      rw [linkCharacter_reading present reads, broken]
      rfl
    · obtain ⟨l, reads⟩ := Option.ne_none_iff_exists'.mp reads
      simp only [State.linkRest, reads, Option.isSome_some, true_and]
      rfl
    · intro kind
      rw [linkCharacter_reading present reads, if_pos whole]
      exact messageByte_of_kind kind rfl s
    · intro kind
      rw [linkCharacter_reading present reads, if_pos whole]
      exact messageByte_of_kind kind rfl s
    · intro kind
      rw [linkCharacter_reading present reads, if_pos whole]
      exact messageByte_of_kind kind rfl s
    · intro h1 h2 h3
      rw [linkCharacter_reading present reads, if_pos whole]
      have two : 1 < (l ++ [b]).length := by
        have := List.length_pos_iff.mpr full
        rw [List.length_append, List.length_singleton]
        omega
      have kind := List.getElem?_eq_getElem two
      rw [kind] at h1 h2 h3
      unfold State.messageByte
      rw [getD_of_getElem? kind, linkLength_other (fun e => h1 (congrArg some e)) (fun e => h2 (congrArg some e))
        fun e => h3 (congrArg some e)]
      rfl
  · show Host.Outcome.next (s.plainEvent _) = _
    rw [plainEvent_of_released released, heardOn_same]
  · show Host.Outcome.next (s.plainEvent _) = _
    rw [plainEvent_of_released released, heardOn_same]
  · intro unheard
    rcases hc with rfl | ⟨d, v, rfl⟩ | ⟨cls, p, exit, len, d, v, rfl⟩
    all_goals
      show Host.Outcome.next (s.event _) = _
      rw [event_of_released released, onMessage_unheard unheard, heardOn_same]
  · intro present waits
    rcases hc with rfl | ⟨d, v, rfl⟩ | ⟨cls, p, exit, len, d, v, rfl⟩
    all_goals
      show Host.Outcome.next (s.event _) = _
      rw [event_of_released released, onMessage_notReady present waits]

end Sys2Proof.Machine

/-! ## Changes of a queue that spare the designation -/

namespace Sys2Proof.Machine

/-- The designation stands on after arm `i` has got the queue `q` (R85). -/
def State.sparedBy (s : State) (i : Arm) (q : List Carrier) : Prop :=
  ∀ o, s.jar.overdue = some o → ∃ h, (if i = o.arrival then q.head? else s.head o.arrival) = some h
    ∧ h.id = o.id ∧ h.state = .waiting ∧ h.exit = o.exit

/-- With the designation standing on, a change of a queue is that of the queue alone, besides the demand, the triggers and the
directions. -/
theorem onQueue_spared {s : State} {i : Arm} {f : List Carrier → List Carrier} (h : s.sparedBy i (f (s.queue i))) :
    (s.onQueue i f).jar.overdue = s.jar.overdue ∧ (s.onQueue i f).xu = s.xu
    ∧ (s.onQueue i f).aqu = { s.aqu with queues := s.aqu.queues.set i (f (s.queue i)) } := by
  unfold State.onQueue
  dsimp only
  generalize hu : (if headNews (s.queue i) (f (s.queue i)) = true then
    (State.noteDemand s (s.putQueue i (f (s.queue i)))).trigger else State.noteDemand s (s.putQueue i (f (s.queue i)))) = u
  have overdue : u.jar.overdue = s.jar.overdue := by
    subst hu
    split <;> simp
  have aqu : u.aqu = { s.aqu with queues := s.aqu.queues.set i (f (s.queue i)) } := by
    subst hu
    split <;> simp [State.putQueue]
  have xu : u.xu = s.xu := by
    subst hu
    split <;> simp
  have stands : u.checkOverdue = u := by
    unfold State.checkOverdue
    split
    · rfl
    · next o ho =>
      rw [if_pos]
      rw [overdueStands_iff]
      obtain ⟨hd, hhd, rest⟩ := h o (overdue ▸ ho)
      refine ⟨hd, ?_, rest⟩
      rw [State.head, State.queue, aqu, Quad.get_set]
      split at hhd
      · next e => rwa [if_pos e]
      · next e => rwa [if_neg e]
  rw [stands]
  exact ⟨overdue, xu, aqu⟩

/-- A record that the designation is not for may change as it likes. -/
theorem DesignationSpares.sparedBy {s : State} {i : Arm} {id : CarrierId} (h : DesignationSpares s i id)
    {f : Carrier → Carrier} : s.sparedBy i (updateRecord id f (s.queue i)) := fun o ho => by
  obtain ⟨hd, hhd, hid, rest⟩ := h.1.2 o ho
  split
  · next e =>
    subst e
    refine ⟨hd, ?_, hid, rest⟩
    have other : hd.id ≠ id := fun e => h.2 o ho rfl (hid ▸ e)
    rw [head_updateRecord, ← State.head, hhd]
    simp [other]
  · exact ⟨hd, hhd, hid, rest⟩

theorem onRecord_spared {s : State} {i : Arm} {id : CarrierId} (h : DesignationSpares s i id) (f : Carrier → Carrier) :
    (s.onRecord i id f).jar.overdue = s.jar.overdue ∧ (s.onRecord i id f).xu = s.xu
    ∧ (s.onRecord i id f).aqu = { s.aqu with queues := s.aqu.queues.set i (updateRecord id f (s.queue i)) } :=
  onQueue_spared h.sparedBy

/-- Records behind an unchanged head leave the designation. -/
theorem QueueLaw.sparedBy {s : State} (hs : QueueLaw s) {i : Arm} {q : List Carrier}
    (h : ∀ o, s.jar.overdue = some o → o.arrival = i → q.head? = s.head i) : s.sparedBy i q := fun o ho => by
  obtain ⟨hd, hhd, rest⟩ := hs.2 o ho
  split
  · next e => exact ⟨hd, by rw [h o ho e.symm, e, hhd], rest⟩
  · exact ⟨hd, hhd, rest⟩

/-- The queues of a state whose arm `i` has got another queue. -/
theorem queue_of_set {s t : State} {i : Arm} {q : List Carrier} (h : t.aqu.queues = s.aqu.queues.set i q) (j : Arm) :
    t.queue j = if i = j then q else s.queue j := by
  rw [State.queue, h, Quad.get_set]
  rfl

/-! ### The demand toward an arm -/

/-- The records that demand an exit, among all queues. -/
def State.demanding (s : State) (j : Arm) : Nat := ∑ i, (s.queue i).countP (Carrier.demands j)

theorem demand_eq (s : State) (j : Arm) : s.demand j = min 15 (s.demanding j) := by
  rw [State.demand, State.demanding, Fin.sum_univ_four]

/-- The demand after arm `i` has got a queue with `n` more records that demand the exit. -/
theorem demand_of_set {s t : State} {i j : Arm} {q : List Carrier} {n : Nat} (h : t.aqu.queues = s.aqu.queues.set i q)
    (hn : q.countP (Carrier.demands j) = (s.queue i).countP (Carrier.demands j) + n) :
    t.demand j = min 15 (s.demand j + n) := by
  have sum : t.demanding j = s.demanding j + n := by
    unfold State.demanding
    rw [← Finset.add_sum_erase _ _ (Finset.mem_univ i), ← Finset.add_sum_erase (a := i) _ _ (Finset.mem_univ i)]
    have here : t.queue i = q := by rw [queue_of_set h, if_pos rfl]
    have rest : ∀ k ∈ Finset.univ.erase i, (t.queue k).countP (Carrier.demands j) = (s.queue k).countP (Carrier.demands j) :=
      fun k hk => by rw [queue_of_set h, if_neg (Ne.symm (Finset.ne_of_mem_erase hk))]
    rw [here, hn, Finset.sum_congr rfl rest]
    omega
  rw [demand_eq, demand_eq, sum]
  omega

/-! ### The overrun check -/

/-- The overrun check finds nothing to act on (R153). -/
theorem overrunCheck_idle {s : State} {i : Arm} {id : CarrierId}
    (h : (∀ c, s.head i = some c → c.id ≠ id ∨ c.state = .granted ∨ c.committed s.cfg = false) ∨ s.part ≠ .running) :
    s.overrunCheck i id = s := by
  unfold State.overrunCheck
  split
  · rfl
  · next c hc =>
    rw [if_neg]
    simp only [Bool.and_eq_true, beq_iff_eq, bne_iff_ne]
    rintro ⟨⟨⟨hid, hst⟩, running⟩, committed⟩
    rcases h with h | h
    · rcases h c hc with e | e | e
      · exact e hid
      · exact hst e
      · simp [e] at committed
    · exact h running

/-! ### The refusal of an ANNOUNCE -/

theorem queuedOn_isSome {s : State} {id : CarrierId} : (s.queuedOn id).isSome = true ↔ ∃ i, ∃ c ∈ s.queue i, c.id = id := by
  unfold State.queuedOn State.recordOn
  simp only [List.find?_isSome, Arm.mem_list, true_and, beq_iff_eq]

theorem inMovement_iff {s : State} {id : CarrierId} :
    s.inMovement id = true ↔ ∃ i m, s.move i = some m ∧ ∃ e ∈ m.carriers, e.id = id := by
  unfold State.inMovement
  simp only [List.any_eq_true, Arm.mem_list, true_and]
  refine exists_congr fun i => ?_
  cases s.move i <;> simp

theorem inUnmatched_iff {s : State} {id : CarrierId} :
    s.inUnmatched id = true ↔ id ≠ 0 ∧ ∃ u ∈ s.xu.unmatched, u.id = id := by
  simp [State.inUnmatched]

theorem noRoute_iff {s : State} {i exit : Arm} :
    s.noRoute i exit = true ↔ exit = i ∨ s.outbound exit = false ∨ (s.path i exit).permitted = false := by
  by_cases e : exit = i
  · simp [State.noRoute, e]
  · simp [State.noRoute, State.permitted, Ne.symm e, e]

/-- The tests of the model are those of the statements (R26). -/
theorem announceRefusal_eq (s : State) (i : Arm) (id : CarrierId) (q : Request) {length : Half} (h : q.length = length.toNat) :
    s.announceRefusal i id q = announceReason s i id q.exit length := by
  unfold State.announceRefusal announceReason
  rw [h]
  by_cases closed : s.inbound i = false
  · rw [if_pos (by simp [closed]), if_pos closed]
  rw [if_neg (by simpa using closed), if_neg closed]
  by_cases field : id = 0 ∨ 400 < length.toNat
  · rw [if_pos (by simpa using field), if_pos field]
  rw [if_neg (by simpa using field), if_neg field]
  by_cases route : q.exit = i ∨ s.outbound q.exit = false ∨ (s.path i q.exit).permitted = false
  · rw [if_pos (noRoute_iff.mpr route), if_pos route]
  rw [if_neg fun e => route (noRoute_iff.mp e), if_neg route]
  have known : id ≠ 0 := fun e => field (.inl e)
  congr 1
  simp only [Bool.or_eq_true, queuedOn_isSome, inMovement_iff, inUnmatched_iff, known, true_and, ne_eq, not_false_eq_true, or_assoc]

end Sys2Proof.Machine

/-! ## ANNOUNCE -/

namespace Sys2Proof.Machine

theorem exec_announce {link : Arm} {id : CarrierId} {cls : Fin 4} {p : Bool} {exit : Arm} {length d v : Half} {s : State}
    (released : s.scu.rstHeld = false) (part : s.part = .recovering ∨ s.part = .running) (present : s.present link = true) :
    Does (.announce link id cls p exit length d v) s
      (State.handleAnnounce link id (requestOf cls p exit length d v) (s.huntLink link)) := by
  show Host.Outcome.next (s.event _) = _
  rw [event_of_released released, onMessage_handled present part]

theorem recordOn_none {s : State} {i : Arm} {id : CarrierId} (h : ∀ c ∈ s.queue i, c.id ≠ id) : s.recordOn i id = none :=
  List.find?_eq_none.mpr fun c hc => by simpa using h c hc

/-- The record that a new ANNOUNCE creates (R27), by the message's fields. -/
theorem handleAnnounce_new {link : Arm} {id : CarrierId} {q : Request} {s : State} (new : ∀ c ∈ s.queue link, c.id ≠ id) :
    State.handleAnnounce link id q s = State.announceNew link id q s := by
  unfold State.handleAnnounce
  rw [recordOn_none new]

/-- Settles O14. -/
theorem announceRefusals : Obligations.AnnounceRefusals := by
  intro link id cls p exit length d v s released part present new reason refused
  have does := exec_announce (id := id) (cls := cls) (p := p) (exit := exit) (length := length) (d := d) (v := v)
    released part present
  rw [handleAnnounce_new (by exact new)] at does
  unfold State.announceNew at does
  rw [announceRefusal_eq _ _ _ _ rfl, show announceReason (s.huntLink link) link id
    (requestOf cls p exit length d v).exit length = some reason from refused] at does
  dsimp only at does
  rwa [heardOn_refusal] at does

/-- Where a record goes (R24). -/
theorem insertRecord_place (c : Carrier) (q : List Carrier) : ∃ front behind, q = front ++ behind
    ∧ insertRecord c q = front ++ c :: behind ∧ (∀ x ∈ front, x.state = .granted ∨ x.distance ≤ c.distance)
    ∧ ∀ x, behind.head? = some x → x.state ≠ .granted ∧ c.distance < x.distance := by
  induction q with
  | nil => exact ⟨[], [], rfl, rfl, nofun, nofun⟩
  | cons a q ih =>
    unfold insertRecord
    by_cases passes : a.state = .granted ∨ a.distance ≤ c.distance
    · obtain ⟨front, behind, rfl, place, before, after⟩ := ih
      refine ⟨a :: front, behind, rfl, ?_, fun x hx => ?_, after⟩
      · rw [if_pos passes, place]
        rfl
      · rcases List.mem_cons.mp hx with rfl | hx
        · exact passes
        · exact before x hx
    · rw [if_neg passes]
      refine ⟨[], a :: q, rfl, rfl, nofun, fun x hx => ?_⟩
      cases hx
      rw [not_or, Nat.not_le] at passes
      exact passes

/-- The causes of a hold outlast the end of an event. -/
theorem sameCauses_finish {s u : State} (h : u.hld = s.hld) : SameCauses s (State.finish s u) := by
  obtain ⟨-, -, -, -, -, overrun, unauthorised, operator⟩ := finish_causes s u
  exact ⟨overrun.trans (congrArg Hld.overrun h), unauthorised.trans (congrArg Hld.unauthorised h),
    operator.trans (congrArg Hld.operator h)⟩

/-- A record inserted with the designation standing on, and a CLEARANCE for its carrier (R27). -/
theorem insertion_does {link : Arm} {id : CarrierId} {c : Carrier} {s : State}
    (spared : (s.huntLink link).sparedBy link (insertRecord c (s.queue link))) :
    (∀ i, (((s.huntLink link).onQueue link (insertRecord c)).clearanceDue link id).queue i
        = if link = i then insertRecord c (s.queue link) else s.queue i)
    ∧ (((s.huntLink link).onQueue link (insertRecord c)).clearanceDue link id).aqu.queues
        = s.aqu.queues.set link (insertRecord c (s.queue link))
    ∧ (((s.huntLink link).onQueue link (insertRecord c)).clearanceDue link id).aqu.sends
        = s.aqu.sends.set link (withClearance id (s.aqu.sends.get link))
    ∧ (((s.huntLink link).onQueue link (insertRecord c)).clearanceDue link id).xu = s.xu := by
  obtain ⟨-, xu, aqu⟩ := onQueue_spared (f := insertRecord c) spared
  have queues : (((s.huntLink link).onQueue link (insertRecord c)).clearanceDue link id).aqu.queues
      = s.aqu.queues.set link (insertRecord c (s.queue link)) := by
    rw [clearanceDue_eq]
    exact congrArg Aqu.queues aqu
  refine ⟨fun i => queue_of_set queues i, queues, ?_, ?_⟩
  · rw [clearanceDue_eq]
    dsimp only
    rw [aqu]
    rfl
  · rw [(clearanceDue_keeps _ _ _).2.2.1, xu]
    rfl

/-- Settles O15. -/
theorem announceInserts : Obligations.AnnounceInserts := by
  refine ⟨insertRecord_place, ?_⟩
  intro link id cls p exit length d v s released part present new accepted law inserted behind spares calm
  have does := exec_announce (id := id) (cls := cls) (p := p) (exit := exit) (length := length) (d := d) (v := v)
    released part present
  rw [handleAnnounce_new (by exact new)] at does
  unfold State.announceNew at does
  rw [announceRefusal_eq _ _ _ _ rfl, show announceReason (s.huntLink link) link id
    (requestOf cls p exit length d v).exit length = none from accepted] at does
  dsimp only at does
  generalize hc : newRecord link id (requestOf cls p exit length d v) = c at does
  have fresh : insertRecord c (s.queue link) = inserted := by subst hc; rfl
  have spared : (s.huntLink link).sparedBy link (insertRecord c (s.queue link)) :=
    QueueLaw.sparedBy (s := s.huntLink link) law fun o ho e => fresh ▸ spares o ho e
  obtain ⟨queue, queues, sends, xu⟩ := insertion_does (id := id) spared
  generalize hu : ((s.huntLink link).onQueue link (insertRecord c)).clearanceDue link id = u at does queue queues sends xu
  have scu : u.scu = s.scu := by subst hu; simp [State.huntLink]
  have hld : u.hld = s.hld := by subst hu; simp [State.huntLink]
  have idle : u.overrunCheck link id = u := by
    refine overrunCheck_idle ?_
    have head : u.head link = inserted.head? := by rw [State.head, queue, if_pos rfl, fresh]
    rcases calm with recovering | safe | same
    · right
      rw [State.part, scu, ← State.part, recovering]
      exact nofun
    · left
      intro h hh
      rw [head, ← fresh] at hh
      rcases mem_insertRecord.mp (List.mem_of_mem_head? hh) with rfl | old
      · right; right
        subst hc
        rw [State.cfg, scu]
        exact safe
      · exact .inl (new h old)
    · left
      intro h hh
      rw [head, same] at hh
      exact .inl (new h (mem_queue_of_head hh))
  rw [idle] at does
  have count (j : Arm) : (insertRecord c (s.queue link)).countP (Carrier.demands j)
      = (s.queue link).countP (Carrier.demands j) + if exit = j then 1 else 0 := by
    rw [(insertRecord_perm c _).countP_eq, List.countP_cons]
    subst hc
    simp [Carrier.demands, newRecord, requestOf]
  have demand (j : Arm) : (State.finish s u).demand j = u.demand j := by simp [State.demand, State.queue]
  refine ⟨_, does, ?_, fun i hi => ?_, ?_, fun j hj => ?_, ?_, ?_, ?_, ?_, ?_, ?_, ?_, sameCauses_finish hld⟩
  · rw [State.queue, (finish_keeps s u).2.1, ← State.queue, queue, if_pos rfl, fresh]
  · rw [State.queue, (finish_keeps s u).2.1, ← State.queue, queue, if_neg (Ne.symm hi)]
  · rw [demand, demand_of_set queues (count exit), if_pos rfl]
  · rw [demand, demand_of_set queues (count j), if_neg (Ne.symm hj), Nat.add_zero, demand_eq]
    omega
  · rw [(finish_keeps s u).2.1, sends]
  · rw [(finish_keeps s u).1, scu]
  · rw [(finish_keeps s u).2.2.1]
    subst hu
    simp [State.huntLink]
  · rw [(finish_keeps s u).2.2.2.1, xu]
  · rw [(finish_keeps s u).2.2.2.2.1]
    subst hu
    simp [State.huntLink]
  · rw [(finish_keeps s u).2.2.2.2.2.1]
    subst hu
    simp [State.huntLink]
  · rw [(finish_keeps s u).2.2.2.2.2.2.1]
    subst hu
    simp [State.huntLink]

end Sys2Proof.Machine

/-! ## A record changed in place, and re-announces -/

namespace Sys2Proof.Machine

/-- From `s` to `t` the record of carrier `id` on arm `i` has changed by `f`, and no other record and no place has; a CLEARANCE
for the carrier has fallen due on the link `link`. -/
structure RecordChanged (link i : Arm) (id : CarrierId) (f : Carrier → Carrier) (s t : State) : Prop where
  record : t.recordOn i id = (s.recordOn i id).map f
  queue : t.queue i = updateRecord id f (s.queue i)
  ids : ∀ j, (t.queue j).map Carrier.id = (s.queue j).map Carrier.id
  others : ∀ r ∈ s.queue i, r.id ≠ id → r ∈ t.queue i
  queues : ∀ j, j ≠ i → t.queue j = s.queue j
  heads : t.head i = (s.head i).map fun c => if c.id = id then f c else c
  sends : t.aqu.sends = s.aqu.sends.set link (withClearance id (s.aqu.sends.get link))
  xu : t.xu = s.xu
  overdue : t.jar.overdue = s.jar.overdue
  scu : t.scu = s.scu
  closures : t.closures = s.closures
  nbrs : t.nbrs = s.nbrs
  wkp : t.wkp = s.wkp
  causes : SameCauses s t
  reserved : ∀ j, (t.seg j).r = (s.seg j).r

theorem recordChanged (link i : Arm) {id : CarrierId} {f : Carrier → Carrier} {s : State} (spares : DesignationSpares s i id)
    (same : ∀ c, (f c).id = c.id) : RecordChanged link i id f s ((s.onRecord i id f).clearanceDue link id) := by
  obtain ⟨overdue, xu, aqu⟩ := onRecord_spared spares f
  rw [clearanceDue_eq]
  generalize hu : s.onRecord i id f = u at *
  have queue : ∀ j, u.queue j = if i = j then updateRecord id f (s.queue i) else s.queue j :=
    fun j => queue_of_set (congrArg Aqu.queues aqu) j
  refine
    { record := ?_, queue := ?_, ids := fun j => ?_, others := fun r hr hne => ?_, queues := fun j hj => ?_, heads := ?_, sends := ?_
      xu := xu, overdue := overdue, scu := ?_, closures := ?_, nbrs := ?_, wkp := ?_, causes := ?_, reserved := fun j => ?_ }
  · show (u.queue i).find? _ = _
    rw [queue, if_pos rfl]
    exact find_updateRecord id f same _
  · show u.queue i = _
    rw [queue, if_pos rfl]
  · show (u.queue j).map _ = _
    rw [queue]
    split
    · next e => rw [updateRecord_ids _ _ same, e]
    · rfl
  · show r ∈ u.queue i
    rw [queue, if_pos rfl]
    exact mem_updateRecord_other hr hne
  · show u.queue j = _
    rw [queue, if_neg (Ne.symm hj)]
  · show (u.queue i).head? = _
    rw [queue, if_pos rfl, head_updateRecord]
    rfl
  · show u.aqu.sends.set link _ = _
    rw [aqu]
  · subst hu; exact (onRecord_keeps i id f s).1
  · subst hu; exact (onRecord_keeps i id f s).2.1
  · subst hu; exact (onRecord_keeps i id f s).2.2.1
  · subst hu; exact (onRecord_keeps i id f s).2.2.2.2.1
  · have hld : u.hld = s.hld := by subst hu; exact (onRecord_keeps i id f s).2.2.2.2.2.1
    exact ⟨congrArg Hld.overrun hld, congrArg Hld.unauthorised hld, congrArg Hld.operator hld⟩
  · subst hu; exact (onQueue_counts i j _ s).2.2.1

/-- The end of an event leaves what a message has done. -/
theorem RecordChanged.finish {link i : Arm} {id : CarrierId} {f : Carrier → Carrier} {s t : State}
    (h : RecordChanged link i id f s t) (old : State) : RecordChanged link i id f s (State.finish old t) := by
  obtain ⟨scu, aqu, closures, xu, nbrs, wkp, -⟩ := finish_keeps old t
  have queue : ∀ j, (State.finish old t).queue j = t.queue j := fun j => by rw [State.queue, aqu, State.queue]
  obtain ⟨-, -, -, -, -, overrun, unauthorised, operator⟩ := finish_causes old t
  exact
    { record := by rw [State.recordOn, queue]; exact h.record
      queue := by rw [queue]; exact h.queue
      ids := fun j => by rw [queue]; exact h.ids j
      others := fun r hr hne => by rw [queue]; exact h.others r hr hne
      queues := fun j hj => by rw [queue]; exact h.queues j hj
      heads := by rw [State.head, queue]; exact h.heads
      sends := by rw [aqu]; exact h.sends
      xu := xu.trans h.xu, overdue := (finish_causes old t).1.trans h.overdue, scu := scu.trans h.scu
      closures := closures.trans h.closures, nbrs := nbrs.trans h.nbrs, wkp := wkp.trans h.wkp
      causes := ⟨overrun.trans h.causes.1, unauthorised.trans h.causes.2.1, operator.trans h.causes.2.2⟩
      reserved := fun j => (finish_counts old t j).2.2.1.trans (h.reserved j) }

/-- An event raised changes no record. -/
theorem RecordChanged.raise {link i : Arm} {id : CarrierId} {f : Carrier → Carrier} {s t : State}
    (h : RecordChanged link i id f s t) (k : EventKind) : RecordChanged link i id f s (t.raise k) :=
  { record := h.record, queue := h.queue, ids := h.ids, others := h.others, queues := h.queues, heads := h.heads, sends := h.sends, xu := h.xu
    overdue := h.overdue, scu := h.scu, closures := h.closures, nbrs := h.nbrs, wkp := h.wkp, causes := h.causes
    reserved := h.reserved }

/-- The designation is not for the record of carrier `id` in a state that has the same queues and the same designation. -/
theorem DesignationSpares.of_keeps {s t : State} {i : Arm} {id : CarrierId} (h : DesignationSpares s i id)
    (queues : t.aqu.queues = s.aqu.queues) (overdue : t.jar.overdue = s.jar.overdue) : DesignationSpares t i id :=
  ⟨h.1.of_keeps queues overdue, fun o ho => h.2 o (overdue ▸ ho)⟩

theorem spares_huntLink {link i : Arm} {id : CarrierId} {s : State} (h : DesignationSpares s i id) :
    DesignationSpares (s.huntLink link) i id := h.of_keeps rfl rfl

/-- No overrun is found on a changed record: it is granted or not committed, it is not the head's, or the part does not run. -/
theorem RecordChanged.idle {link i : Arm} {id : CarrierId} {f : Carrier → Carrier} {s t : State}
    (h : RecordChanged link i id f s t) {c : Carrier} (hc : s.recordOn i id = some c)
    (calm : (f c).state = .granted ∨ s.part = .recovering ∨ (s.head i).map Carrier.id ≠ some id
      ∨ (f c).committed s.cfg = false) : t.overrunCheck i id = t := by
  have found : ∀ d, s.head i = some d → d.id = id → d = c := fun d hd hid => by
    have : s.recordOn i id = some d := by
      obtain ⟨rest, hq⟩ := List.head?_eq_some_iff.mp hd
      rw [State.recordOn, hq, List.find?_cons_of_pos (by simp [hid])]
    exact Option.some.inj (this.symm.trans hc)
  refine overrunCheck_idle ?_
  by_cases recovering : s.part = .recovering
  · right
    rw [State.part, h.scu, ← State.part, recovering]
    exact nofun
  · left
    intro d hd
    rw [h.heads] at hd
    obtain ⟨b, hb, rfl⟩ := Option.map_eq_some_iff.mp hd
    by_cases hid : b.id = id
    · rw [if_pos hid, found b hb hid, State.cfg, h.scu, ← State.cfg]
      rcases calm with e | e | e | e
      · exact .inr (.inl e)
      · exact absurd e recovering
      · exact absurd (by rw [hb, Option.map_some, hid]) e
      · exact .inr (.inr e)
    · rw [if_neg hid]
      exact .inl hid

/-! ### Re-announces -/

theorem handleAnnounce_queued {link : Arm} {id : CarrierId} {q : Request} {c : Carrier} {s : State}
    (queued : s.recordOn link id = some c) : State.handleAnnounce link id q s = s.reannounce link c q := by
  unfold State.handleAnnounce
  rw [queued]

theorem reannounce_long {link : Arm} {q : Request} {c : Carrier} {s : State} (long : 400 < q.length) :
    s.reannounce link c q = s.refusalDue link c.id .badField := if_pos long

theorem reannounce_noRoute {link : Arm} {q : Request} {c : Carrier} {s : State} (short : ¬ 400 < q.length)
    (route : s.noRoute link q.exit = true) : s.reannounce link c q = s.refusalDue link c.id .noRoute :=
  (if_neg short).trans (if_pos route)

theorem reannounce_accepted {link : Arm} {q : Request} {c : Carrier} {s : State} (short : ¬ 400 < q.length)
    (route : ¬ s.noRoute link q.exit = true) (same : c.state = .granted → c.exit = q.exit) :
    s.reannounce link c q = s.acceptReannounce link c.id q := by
  refine (if_neg short).trans ((if_neg route).trans (if_neg ?_))
  simpa using same

theorem reannounce_underGrant {link : Arm} {q : Request} {c : Carrier} {s : State} (short : ¬ 400 < q.length)
    (route : ¬ s.noRoute link q.exit = true) (granted : c.state = .granted) (other : c.exit ≠ q.exit) :
    s.reannounce link c q = s.reannounceUnderGrant link c q := by
  refine (if_neg short).trans ((if_neg route).trans (if_pos ?_))
  simp [granted, other]

/-- Settles O16. -/
theorem reannounceOfQueuedCarrier : Obligations.ReannounceOfQueuedCarrier := by
  intro link id cls p exit length d v c s released part present queued noRoute refused
  have does := exec_announce (id := id) (cls := cls) (p := p) (exit := exit) (length := length) (d := d) (v := v)
    released part present
  rw [handleAnnounce_queued (by exact queued)] at does
  obtain ⟨-, rfl⟩ := recordOn_some queued
  refine ⟨fun long => ?_, fun short route => ?_, fun short route same spares calm => ?_,
    fun short route granted other spares => ⟨fun committed => ?_, fun free calm => ?_⟩⟩
  · rw [reannounce_long (by exact long), heardOn_refusal] at does
    exact does
  · rw [reannounce_noRoute (by exact Nat.not_lt.mpr short) (noRoute_iff.mpr (by exact route)), heardOn_refusal] at does
    exact does
  · rw [reannounce_accepted (by exact Nat.not_lt.mpr short) (fun e => route (noRoute_iff.mp (by exact e))) (by exact same)] at does
    unfold State.acceptReannounce at does
    have changed := recordChanged link link (f := fun c => (c.retake (requestOf cls p exit length d v)).heard.wake)
      (spares_huntLink (link := link) spares) fun _ => rfl
    rw [changed.idle (by exact queued) ?_] at does
    · have done := changed.finish s
      refine ⟨_, does, ?_, done.ids link, done.others, done.queues, done.sends, done.scu, done.closures, done.xu, done.nbrs,
        done.wkp, by simp [State.huntLink], done.causes⟩
      rw [done.record, show (s.huntLink link).recordOn link c.id = some c from queued]
      rfl
    · rcases calm with e | e | e | e
      · left
        exact if_pos e
      · exact .inr (.inl e)
      · exact .inr (.inr (.inl e))
      · exact .inr (.inr (.inr e))
  · rw [reannounce_underGrant (by exact Nat.not_lt.mpr short) (fun e => route (noRoute_iff.mp (by exact e))) granted
      (by exact other)] at does
    unfold State.reannounceUnderGrant at does
    rw [if_pos (by exact committed), heardOn_refusal] at does
    have changed := recordChanged link link
      (f := fun r => { r with
        distance := (requestOf cls p exit length d v).distance, speed := (requestOf cls p exit length d v).speed }.heard)
      (s := s.heardOn link (withDue (.refusal c.id .committed) (s.aqu.sends.get link))) (spares.of_keeps rfl rfl) fun _ => rfl
    have done := changed.finish s
    refine ⟨_, does, ?_, ?_, done.xu, done.scu, done.closures, done.nbrs, done.wkp, done.causes⟩
    · rw [done.record]
      exact congrArg (Option.map _) queued
    · rw [done.sends]
      simp [State.heardOn, quad_set_set]
  · rw [reannounce_underGrant (by exact Nat.not_lt.mpr short) (fun e => route (noRoute_iff.mp (by exact e))) granted
      (by exact other)] at does
    unfold State.reannounceUnderGrant at does
    rw [if_neg (by rw [Bool.not_eq_true]; exact free)] at does
    have spares' : DesignationSpares ((s.huntLink link).withdrawGrant c.id) link c.id :=
      (spares_huntLink spares).of_keeps (by simp) (withdrawGrant_overdue _ _)
    have changed := recordChanged link link
      (f := fun r => { (r.retake (requestOf cls p exit length d v)).heard with state := .waiting, skip := 0 }) spares' fun _ => rfl
    have aqu : ((s.huntLink link).withdrawGrant c.id).aqu = (s.huntLink link).aqu := by simp
    have scu : ((s.huntLink link).withdrawGrant c.id).scu = s.scu := (withdrawGrant_keeps _ _).1
    have queued' : ((s.huntLink link).withdrawGrant c.id).recordOn link c.id = some c := by
      rw [State.recordOn, State.queue, aqu]
      exact queued
    rw [changed.idle queued' ?_] at does
    · have done := changed.finish s
      refine ⟨_, does, ?_, fun k m hk hm => ⟨?_, ?_⟩, ?_, ?_, ?_, ?_, ?_⟩
      · rw [done.record, queued']
        rfl
      · obtain ⟨moves, -⟩ := withdrawGrant_does (s := s.huntLink link) hk hm
        rw [State.move, done.xu, ← State.move, moves, if_pos rfl]
        rfl
      · obtain ⟨-, -, reserved, -⟩ := withdrawGrant_does (s := s.huntLink link) hk hm
        rw [done.reserved, reserved, if_pos rfl]
        rfl
      · rw [done.sends, aqu]
        rfl
      · rw [done.scu, scu]
      · rw [done.closures]
        exact (withdrawGrant_keeps _ _).2.2.1
      · rw [done.nbrs]
        exact (withdrawGrant_keeps _ _).2.2.2.1
      · have hld : ((s.huntLink link).withdrawGrant c.id).hld = s.hld := (withdrawGrant_keeps _ _).2.2.2.2.2.1
        have causes := done.causes
        unfold SameCauses at causes
        rwa [hld] at causes
    · rcases calm with e | e | e
      · right; left
        rw [State.part, scu]
        exact e
      · right; right; left
        rw [State.head, State.queue, aqu]
        exact e
      · right; right; right
        rw [State.cfg, scu]
        exact e

end Sys2Proof.Machine

/-! ## POSITION -/

namespace Sys2Proof.Machine

theorem exec_position {link : Arm} {id : CarrierId} {d v : Half} {s : State}
    (released : s.scu.rstHeld = false) (part : s.part = .recovering ∨ s.part = .running) (present : s.present link = true) :
    Does (.position link id d v) s (State.handlePosition link id d.toNat (min 400 v.toNat) (s.huntLink link)) := by
  show Host.Outcome.next (s.event _) = _
  rw [event_of_released released, onMessage_handled present part]

theorem handlePosition_queued {link i : Arm} {id : CarrierId} {d v : Nat} {s : State} (queued : s.queuedOn id = some i) :
    State.handlePosition link id d v s = State.takePosition link i id d v s := by
  unfold State.handlePosition
  rw [queued]

/-- Where a carrier is queued is a matter of the IDs on the queues. -/
theorem queuedOn_congr {s t : State} (h : ∀ i, (t.queue i).map Carrier.id = (s.queue i).map Carrier.id) (id : CarrierId) :
    t.queuedOn id = s.queuedOn id := by
  have some' (i : Arm) : (t.recordOn i id).isSome = (s.recordOn i id).isSome := by
    have mem (l : List Carrier) : (l.find? fun c => c.id == id).isSome = (l.map Carrier.id).contains id := by
      rw [Bool.eq_iff_iff]
      simp
    rw [State.recordOn, State.recordOn, mem, mem, h]
  unfold State.queuedOn
  simp only [some']

/-- The record as a POSITION leaves it (R30). -/
def Carrier.positioned (d v : Nat) (c : Carrier) : Carrier := ({ c with distance := d, speed := v }).heard.wake

/-- The state in which the record has taken a POSITION, before the overrun check (R30). -/
def State.positioned (link i : Arm) (id : CarrierId) (d v : Nat) (s : State) : State :=
  (s.onRecord i id (Carrier.positioned d v)).clearanceDue link id

theorem takePosition_eq (link i : Arm) (id : CarrierId) (d v : Nat) (s : State) :
    s.takePosition link i id d v = ((s.positioned link i id d v).overrunCheck i id).retestDeferred i id := rfl

theorem positioned_changed {link i : Arm} {id : CarrierId} {d v : Nat} {s : State} (spares : DesignationSpares s i id) :
    RecordChanged link i id (Carrier.positioned d v) s (s.positioned link i id d v) :=
  recordChanged link i spares fun _ => rfl

theorem lapseDeferred_congr {s t : State} (h : t.xu = s.xu) (id : CarrierId) : t.lapseDeferred id = s.lapseDeferred id := by
  unfold State.lapseDeferred State.grantOf State.move
  rw [h]

theorem RecordChanged.entryCommitted {link i : Arm} {id : CarrierId} {f : Carrier → Carrier} {s t : State}
    (h : RecordChanged link i id f s t) {c : Carrier} (hc : s.recordOn i id = some c) :
    t.entryCommitted i id = (f c).committed s.cfg := by
  rw [State.entryCommitted, h.record, hc, State.cfg, h.scu, ← State.cfg]
  rfl

/-- A designation that spares a record goes on sparing it when the record changes. -/
theorem RecordChanged.spares {link i : Arm} {id : CarrierId} {f : Carrier → Carrier} {s t : State}
    (h : RecordChanged link i id f s t) (spares : DesignationSpares s i id) (arrival : ∀ c, (f c).arrival = c.arrival) :
    DesignationSpares t i id := by
  refine ⟨⟨fun j c hc => ?_, fun o ho => ?_⟩, fun o ho => spares.2 o (h.overdue ▸ ho)⟩
  · by_cases e : j = i
    · subst e
      rw [h.queue] at hc
      exact arrivals_updateRecord arrival (spares.1.1 j) c hc
    · rw [h.queues j e] at hc
      exact spares.1.1 j c hc
  · rw [h.overdue] at ho
    obtain ⟨hd, hhd, hid, rest⟩ := spares.1.2 o ho
    refine ⟨hd, ?_, hid, rest⟩
    by_cases e : o.arrival = i
    · have other : hd.id ≠ id := fun e' => spares.2 o ho e (hid ▸ e')
      rw [e, h.heads, ← e, hhd]
      simp [other]
    · rw [State.head, h.queues _ e]
      exact hhd

/-- A grant lapses: on the state without the grant, the record is LAPSED or MUTE, a CLEARANCE is due, and GRANT_LAPSE is
raised (R68). -/
theorem lapse_does {s : State} {i : Arm} {id : CarrierId} (queued : s.queuedOn id = some i) (spares : DesignationSpares s i id) :
    RecordChanged i i id Carrier.toLapsed (s.withdrawGrant id) (s.lapse id) ∧ (s.lapse id).flagged .grantLapse = true := by
  unfold State.lapse
  rw [queued]
  have spares' : DesignationSpares (s.withdrawGrant id) i id := spares.of_keeps (by simp) (withdrawGrant_overdue _ _)
  exact ⟨(recordChanged i i (f := Carrier.toLapsed) spares' fun _ => rfl).raise .grantLapse, by simp⟩

/-- Settles O17. -/
theorem positionOfQueuedCarrier : Obligations.PositionOfQueuedCarrier := by
  refine ⟨?_, ?_⟩
  · intro link i id d v c m s released part present queued record spares granted found hm deferred free
    have does := exec_position (id := id) (d := d) (v := v) released part present
    have changed := positioned_changed (link := link) (d := d.toNat) (v := min 400 v.toNat) (spares_huntLink (link := link) spares)
    rw [handlePosition_queued (by exact queued), takePosition_eq,
      changed.idle (by exact record) (.inl (if_pos granted))] at does
    generalize (s.huntLink link).positioned link i id d.toNat (min 400 v.toNat) = u at changed does
    have takes : u.retestDeferred i id = u.lapse id := by
      refine if_pos ?_
      rw [lapseDeferred_congr changed.xu, changed.entryCommitted (by exact record)]
      have free' : (Carrier.positioned d.toNat (min 400 v.toNat) c).committed (s.huntLink link).cfg = false := free
      rw [free', show (s.huntLink link).lapseDeferred id = true from deferred]
      rfl
    have queued' : u.queuedOn id = some i := (queuedOn_congr (s := s.huntLink link) changed.ids id).trans queued
    have found' : u.grantOf id = some i := by
      rw [State.grantOf, show u.move = s.move from funext fun k => by rw [State.move, changed.xu]; rfl]
      exact found
    have hm' : u.move i = some m := by
      rw [State.move, changed.xu]
      exact hm
    have spares' : DesignationSpares u i id := changed.spares (spares_huntLink spares) fun _ => rfl
    obtain ⟨lapsed, flagged⟩ := lapse_does queued' spares'
    obtain ⟨moves, -, reserved, -, unmatched, -, -, -, aqu, -⟩ := withdrawGrant_does found' hm'
    obtain ⟨scu, -, closures, nbrs, -, hld, -⟩ := withdrawGrant_keeps id u
    rw [takes] at does
    have done := lapsed.finish s
    have move : ∀ j, (State.finish s (u.lapse id)).move j = (u.withdrawGrant id).move j := fun j => by
      rw [State.move, done.xu, State.move]
    refine ⟨_, does, ?_, ?_, ?_, ?_, ?_, fun j hj => ⟨?_, ?_⟩, ?_, ?_, ?_, ?_, ?_⟩
    · rw [State.flagged, (finish_keeps s _).2.2.2.2.2.2.1]
      exact flagged
    · have here : (u.withdrawGrant id).recordOn i id = some (Carrier.positioned d.toNat (min 400 v.toNat) c) := by
        rw [State.recordOn, State.queue, aqu]
        exact changed.record.trans (congrArg (Option.map _) record)
      rw [done.record, here]
      simp [Carrier.toLapsed, Carrier.positioned, Carrier.wake, Carrier.heard]
    · rw [move, moves, if_pos rfl]
      rfl
    · rw [done.reserved, reserved, if_pos rfl, changed.reserved]
      rfl
    · rw [done.sends, aqu, changed.sends]
      rfl
    · rw [done.queues j hj, State.queue, aqu]
      exact changed.queues j hj
    · rw [move, moves, if_neg (Ne.symm hj), State.move, changed.xu]
      rfl
    · rw [done.xu, unmatched, changed.xu]
      rfl
    · rw [done.scu, scu, changed.scu]
      rfl
    · rw [done.closures, closures, changed.closures]
      rfl
    · rw [done.nbrs, nbrs, changed.nbrs]
      rfl
    · have causes := done.causes
      unfold SameCauses at causes ⊢
      rw [hld] at causes
      exact ⟨causes.1.trans changed.causes.1, causes.2.1.trans changed.causes.2.1, causes.2.2.trans changed.causes.2.2⟩
  · intro link i id d v c s released part present queued record spares calm
    have does := exec_position (id := id) (d := d) (v := v) released part present
    have changed := positioned_changed (link := link) (d := d.toNat) (v := min 400 v.toNat) (spares_huntLink (link := link) spares)
    have idle : ((s.huntLink link).positioned link i id d.toNat (min 400 v.toNat)).overrunCheck i id
        = (s.huntLink link).positioned link i id d.toNat (min 400 v.toNat) := by
      refine changed.idle (by exact record) ?_
      rcases calm with ⟨e, -⟩ | ⟨e, -⟩ | ⟨e, -⟩ | ⟨-, -, e⟩ | ⟨e, -⟩
      · exact .inl (if_pos e)
      · exact .inr (.inl e)
      · exact .inr (.inr (.inl e))
      · exact .inr (.inr (.inr e))
      · exact .inl (if_pos e)
    rw [handlePosition_queued (by exact queued), takePosition_eq, idle] at does
    have mtp : ((s.huntLink link).positioned link i id d.toNat (min 400 v.toNat)).mtp = s.mtp := by
      simp [State.positioned, State.huntLink]
    generalize (s.huntLink link).positioned link i id d.toNat (min 400 v.toNat) = u at changed does mtp
    have keeps : u.retestDeferred i id = u := by
      refine if_neg ?_
      rw [lapseDeferred_congr changed.xu, changed.entryCommitted (by exact record)]
      have kept : s.lapseDeferred id = false
          ∨ (Carrier.positioned d.toNat (min 400 v.toNat) c).committed (s.huntLink link).cfg = true := by
        rcases calm with ⟨-, e⟩ | ⟨-, e⟩ | ⟨-, e⟩ | ⟨-, e, -⟩ | ⟨-, e⟩
        · exact .inl e
        · exact .inl e
        · exact .inl e
        · exact .inl e
        · exact .inr e
      rcases kept with e | e
      · rw [show (s.huntLink link).lapseDeferred id = false from e]
        simp
      · rw [e]
        simp
    rw [keeps] at does
    have done := changed.finish s
    refine ⟨_, does, ?_, done.ids i, done.others, done.queues, done.sends, done.scu, done.closures, done.xu, done.nbrs,
      done.wkp, ?_, done.causes⟩
    · rw [done.record]
      exact congrArg (Option.map _) record
    · rw [(finish_keeps s u).2.2.2.2.2.2.1, mtp]

end Sys2Proof.Machine

/-! ## A hold cause added -/

namespace Sys2Proof.Machine

/-- The part states in which a cause added to an empty set enters a hold (R152). -/
def PartState.holds (p : PartState) : Prop := p = .listening ∨ p = .recovering ∨ p = .running

theorem addCause_held {s : State} (part : s.part.holds) (held : s.held = true) (c : HoldCause) :
    s.addCause c = s.addToHold c := by
  unfold State.addCause
  rcases part with e | e | e
  · rw [e]
    exact if_pos held
  · rw [e]
    exact if_pos held
  · rw [e]
    exact if_pos held

theorem addCause_elsewhere {s : State} (part : ¬ s.part.holds) (c : HoldCause) : s.addCause c = s.modHld (Hld.add c) := by
  unfold State.addCause
  cases h : s.part <;> simp_all [PartState.holds]

theorem holdEntry_eq (s : State) : s.holdEntry = s.holdFrom s.heldForCarrier := by
  have same : s.endOverdue.dropRound.heldForCarrier = s.heldForCarrier := by
    simp [State.heldForCarrier, State.dropRound]
  unfold State.holdEntry
  dsimp only
  rw [same]
  rfl

theorem addCause_first {s : State} (part : s.part.holds) (unheld : s.held = false) (c : HoldCause) :
    s.addCause c = (s.modHld (Hld.add c)).holdFrom (s.modHld (Hld.add c)).heldForCarrier := by
  rw [← holdEntry_eq]
  unfold State.addCause
  rcases part with e | e | e
  · rw [e]
    exact if_neg (by simp [unheld])
  · rw [e]
    exact if_neg (by simp [unheld])
  · rw [e]
    exact if_neg (by simp [unheld])

/-- A cause in the set holds the junction. -/
theorem held_add (c : HoldCause) (s : State) : (s.modHld (Hld.add c)).held = true := by
  cases c <;> simp [State.held, State.modHld, Hld.add]

/-- What the first cause does: hold entry, from the state with the cause in the set (R152, R156). -/
theorem addCause_first_does {s : State} (part : s.part.holds) (unheld : s.held = false) (c : HoldCause) :
    HoldsFrom (s.modHld (Hld.add c)).heldForCarrier (s.modHld (Hld.add c)) (s.addCause c) := by
  rw [addCause_first part unheld]
  refine holdFrom_does ?_ ?_
  · rw [State.granting, held_add]
    simp
  · have new : (s.modHld (Hld.add c)).part ≠ .faulted := by
      show s.part ≠ .faulted
      rcases part with e | e | e <;> rw [e] <;> exact nofun
    simp [new]

/-- The laws of the grants hold of a state with another hold-cause set. -/
theorem grantLaw_modHld {s : State} (hs : GrantLaw s) (f : Hld → Hld) : GrantLaw (s.modHld f) := hs

theorem queueLaw_modHld {s : State} (hs : QueueLaw s) (f : Hld → Hld) : QueueLaw (s.modHld f) := hs

theorem law_modHld {s : State} (hs : CrossingLaw s) (f : Hld → Hld) : CrossingLaw (s.modHld f) := hs

/-! ### Overrun -/

theorem rescuable_iff {s : State} {c : Carrier} : s.rescuable c = true ↔
    s.granting = true ∧ s.inbound c.arrival = true ∧ s.outbound c.exit = true
      ∧ (c.arrival ≠ c.exit ∧ (s.path c.arrival c.exit).permitted = true)
      ∧ (∀ k ∈ cellSet c.arrival c.exit, s.cell k = .free ∨ s.cell k = .reserved c.id)
      ∧ (s.wkp.state = .opened → s.walkArm c.arrival = false ∧ s.walkArm c.exit = false) ∧ s.admits c.exit = true := by
  have takable (x : Cell) : x.takable c.id = true ↔ x = .free ∨ x = .reserved c.id := by
    cases x <;> simp [Cell.takable]
  have walk : s.walkPermitsRescue c.arrival c.exit = true
      ↔ (s.wkp.state = .opened → s.walkArm c.arrival = false ∧ s.walkArm c.exit = false) := by
    unfold State.walkPermitsRescue
    cases h : s.wkp.state <;> simp [State.involvesWalk]
  simp only [State.rescuable, Bool.and_eq_true, State.permitted, bne_iff_ne, State.cellsTakable, List.all_eq_true, takable,
    walk, and_assoc]

theorem overrunCheck_committed {s : State} {i : Arm} {id : CarrierId} {c : Carrier} (head : s.head i = some c) (hid : c.id = id)
    (waits : c.state ≠ .granted) (running : s.part = .running) (committed : c.committed s.cfg = true) :
    s.overrunCheck i id
      = if s.rescuable c then (s.executeGrant c true).raise .rescue else (s.raise .overrun).addCause .overrun := by
  unfold State.overrunCheck
  rw [head]
  exact if_pos (by simp [hid, waits, running, committed])

/-- What an OVERRUN does (R155). -/
structure Overruns (s t : State) : Prop where
  flagged : t.flagged .overrun = true
  cause : t.hld.overrun = true
  granting : t.granting = false
  unauthorised : t.hld.unauthorised = s.hld.unauthorised
  operator : t.hld.operator = s.hld.operator
  unmatched : t.xu.unmatched = s.xu.unmatched
  ids : ∀ j, (t.queue j).map Carrier.id = (s.queue j).map Carrier.id
  closed : s.heldForCarrier = false → ∀ k, t.cell k ≠ .free ∧ ∀ id, t.cell k ≠ .reserved id
  entered : s.held = false → t.jar.overdue = none ∧ t.jar.due = false ∧ t.wkp.state = .closed
    ∧ (CrossingLaw s → QueueLaw s → GrantLaw s → GrantsHeld s t)
    ∧ ∀ j, t.aqu.sends.get j = withClearances (s.queue j) (s.aqu.sends.get j)
  flags : ∀ k, k ≠ .countInconsistent → k ≠ .overrun → t.flagged k = s.flagged k
  scu : t.scu = s.scu
  closures : t.closures = s.closures
  nbrs : t.nbrs = s.nbrs
  moves : s.held = true → t.xu.moves = s.xu.moves

theorem overruns_addCause {s : State} (running : s.part = .running) : Overruns s ((s.raise .overrun).addCause .overrun) := by
  have part : (s.raise .overrun).part.holds := .inr (.inr running)
  cases held : s.held with
  | true =>
    rw [addCause_held part held]
    have again : (s.raise .overrun).addToHold .overrun = if s.heldForCarrier
        then (s.raise .overrun).modHld fun h => { h.add .overrun with settle := .stopped }
        else ((s.raise .overrun).modHld (Hld.add .overrun)).mapCells Cell.toEmergency := rfl
    have raised : (s.raise .overrun).flagged .overrun = true := by simp
    have other : ∀ k, k ≠ .overrun → (s.raise .overrun).flagged k = s.flagged k := fun k hk => by simp [Ne.symm hk]
    rw [again]
    split
    · next carrier =>
      exact
        { flagged := raised, cause := rfl, granting := Bool.and_false _, unauthorised := rfl, operator := rfl, unmatched := rfl
          ids := fun _ => rfl, closed := fun e => (by rw [carrier] at e; cases e), entered := fun e => absurd (held ▸ e) (by decide)
          flags := fun k _ hk => other k hk, scu := rfl, closures := rfl, nbrs := rfl, moves := fun _ => rfl }
    · exact
        { flagged := raised, cause := rfl, granting := Bool.and_false _, unauthorised := rfl, operator := rfl, unmatched := rfl
          ids := fun _ => rfl, entered := fun e => absurd (held ▸ e) (by decide), flags := fun k _ hk => other k hk, scu := rfl, closures := rfl, nbrs := rfl
          moves := fun _ => rfl
          closed := fun _ k => by
            rw [cell_mapCells]
            exact toEmergency_closed _ }
  | false =>
    have does := addCause_first_does part held .overrun
    have carrier : ((s.raise .overrun).modHld (Hld.add .overrun)).heldForCarrier = true := rfl
    rw [carrier] at does
    have cause := congrArg Hld.overrun does.hld
    exact
      { flagged := by
          rw [does.flags .overrun nofun]
          exact (flagged_raise .overrun .overrun s).trans (by simp)
        cause := cause
        granting := by
          rw [State.granting, State.held, cause]
          exact Bool.and_false _
        unauthorised := (congrArg Hld.unauthorised does.hld).trans rfl, operator := (congrArg Hld.operator does.hld).trans rfl
        unmatched := does.unmatched, ids := does.ids, closed := fun _ => does.closed rfl
        entered := fun _ => ⟨does.overdue, does.due, congrArg Wkp.state does.wkp, fun hc hq hs =>
          (does.held hc hq hs).of_granted hs hs rfl (fun _ => rfl) (fun _ => rfl) fun _ _ hc _ => hc, does.sends⟩
        flags := fun k hk hk' => by
          rw [does.flags k hk]
          exact (flagged_raise .overrun k s).trans (by simp [Ne.symm hk'])
        scu := does.scu, closures := does.closures, nbrs := does.nbrs, moves := fun e => absurd (held ▸ e) (by decide) }

end Sys2Proof.Machine

/-! ## Changes of a queue that may end the designation -/

namespace Sys2Proof.Machine

/-- A record's share in the designation is over (R85). -/
def Carrier.undesignated (c : Carrier) : Carrier := { c with overdue := false, skip := 0 }

/-- The record found under an ID after another or the same has been replaced in place. -/
theorem find_updateRecord_any {x id : CarrierId} {g : Carrier → Carrier} (hg : ∀ c, (g c).id = c.id) (q : List Carrier) :
    (updateRecord x g q).find? (fun c => c.id == id)
      = (q.find? fun c => c.id == id).map fun c => if c.id = x then g c else c := by
  rw [updateRecord, List.find?_map]
  congr 2
  funext c
  rw [Function.comp_apply]
  split
  · rw [hg]
  · rfl

/-- A queue changed under the law of the queues: the designation stands on, or it is for a record of that queue and ends. -/
theorem onQueue_queues {s : State} (law : QueueLaw s) (i : Arm) (f : List Carrier → List Carrier) :
    (∀ j, j ≠ i → (s.onQueue i f).queue j = s.queue j)
    ∧ ((s.onQueue i f).queue i = f (s.queue i)
      ∨ ∃ o, s.jar.overdue = some o ∧ o.arrival = i
        ∧ (s.onQueue i f).queue i = updateRecord o.id Carrier.undesignated (f (s.queue i))) := by
  unfold State.onQueue
  dsimp only
  generalize hu : (if headNews (s.queue i) (f (s.queue i)) = true then
    (State.noteDemand s (s.putQueue i (f (s.queue i)))).trigger else State.noteDemand s (s.putQueue i (f (s.queue i)))) = u
  have overdue : u.jar.overdue = s.jar.overdue := by
    subst hu
    split <;> simp
  have queue : ∀ j, u.queue j = if i = j then f (s.queue i) else s.queue j := fun j => by
    rw [← queue_putQueue]
    subst hu
    split <;> simp [State.queue]
  have rest : ∀ j, j ≠ i → u.queue j = s.queue j := fun j hj => by rw [queue, if_neg (Ne.symm hj)]
  unfold State.checkOverdue
  split
  · exact ⟨rest, .inl (by rw [queue, if_pos rfl])⟩
  · next o ho =>
    split
    · exact ⟨rest, .inl (by rw [queue, if_pos rfl])⟩
    · next ends =>
      have here : o.arrival = i := by
        by_contra away
        refine ends ((overdueStands_iff u o).mpr ?_)
        rw [State.head, rest _ away]
        exact law.2 o (overdue ▸ ho)
      have ended := (endOverdue_does u).2.1
      simp only [ho] at ended
      refine ⟨fun j hj => ?_, .inr ⟨o, overdue ▸ ho, here, ?_⟩⟩
      · rw [ended, if_neg fun e => hj (e.symm.trans here), rest j hj]
      · rw [ended, if_pos here, queue, if_pos rfl]
        rfl

/-- The record that is found on a queue after the queue has changed. -/
theorem onQueue_recordOn {s : State} (law : QueueLaw s) {i : Arm} {f : List Carrier → List Carrier} {id : CarrierId}
    {c : Carrier} (hc : (f (s.queue i)).find? (fun r => r.id == id) = some c) :
    (s.onQueue i f).recordOn i id = some c
    ∨ (∃ o, s.jar.overdue = some o ∧ o.arrival = i ∧ o.id = id)
      ∧ (s.onQueue i f).recordOn i id = some c.undesignated := by
  have hid : c.id = id := by simpa using List.find?_some hc
  rcases (onQueue_queues law i f).2 with e | ⟨o, ho, here, e⟩
  · exact .inl (by rw [State.recordOn, e, hc])
  · have found : (s.onQueue i f).recordOn i id = some (if c.id = o.id then c.undesignated else c) := by
      rw [State.recordOn, e, find_updateRecord_any (g := Carrier.undesignated) (fun _ => rfl), hc]
      rfl
    by_cases same : c.id = o.id
    · exact .inr ⟨⟨o, ho, here, same.symm.trans hid⟩, by rw [found, if_pos same]⟩
    · exact .inl (by rw [found, if_neg same])

/-- A record joins a queue that holds none under its ID. -/
theorem find_insertRecord {c : Carrier} {q : List Carrier} (new : ∀ d ∈ q, d.id ≠ c.id) :
    (insertRecord c q).find? (fun r => r.id == c.id) = some c := by
  cases h : (insertRecord c q).find? fun r => r.id == c.id with
  | none => exact absurd (List.find?_eq_none.mp h c (mem_insertRecord.mpr (.inl rfl))) (by simp)
  | some d =>
    have hid : d.id = c.id := by simpa using List.find?_some h
    rcases mem_insertRecord.mp (List.mem_of_find?_eq_some h) with rfl | old
    · rfl
    · exact absurd hid (new d old)

end Sys2Proof.Machine

/-! ## Authority and ceilings -/

namespace Sys2Proof.Machine

theorem le_foldl_min {v a : Nat} {l : List Nat} : v ≤ l.foldl min a ↔ v ≤ a ∧ ∀ x ∈ l, v ≤ x := by
  induction l generalizing a with
  | nil => simp
  | cons b l ih => rw [List.foldl_cons, ih, le_min_iff, and_assoc, List.forall_mem_cons]

/-- The zone of a distance (R8). -/
theorem zoneIndex_spec (zones : List Zone) (d : Nat) (some' : zones ≠ []) :
    zoneIndex zones d < zones.length ∧ (∀ k b, k < zoneIndex zones d → zones[k]? = some b → b.bound ≤ d)
    ∧ ∀ b, zoneIndex zones d + 1 < zones.length → zones[zoneIndex zones d]? = some b → d < b.bound := by
  induction zones with
  | nil => exact absurd rfl some'
  | cons z rest ih =>
    match rest, ih with
    | [], _ => simp [zoneIndex]
    | w :: rest, ih =>
      by_cases below : d < z.bound
      · rw [zoneIndex, if_pos below]
        exact ⟨by simp, fun k _ hk => absurd hk (Nat.not_lt_zero k), fun b _ hb => by
          obtain rfl : z = b := by simpa using hb
          exact below⟩
      · obtain ⟨inside, above, under⟩ := ih (List.cons_ne_nil _ _)
        rw [zoneIndex, if_neg below]
        refine ⟨by simpa using inside, fun k b hk hb => ?_, fun b hn hb => ?_⟩
        · cases k with
          | zero =>
            obtain rfl : z = b := by simpa using hb
            omega
          | succ k => exact above k b (by omega) (by simpa using hb)
        · exact under b (by simpa using hn) (by simpa using hb)

theorem authority_alone (own : Nat) : authority own none = min 65535 own := Nat.min_comm _ _

theorem authority_behind (own : Nat) (lead : Int) :
    (authority own (some lead) : Int) = min 65535 (max 0 (min (own : Int) lead)) := by
  rw [authority]
  omega

theorem authority_le (own : Nat) (lead : Option Int) : authority own lead ≤ own ∧ authority own lead ≤ 65535 := by
  cases lead <;> rw [authority] <;> omega

/-- What a ceiling lies below (R40, R44 to R46). -/
theorem le_queuedCeiling (c : JunctionConfig) (r : Carrier) (leader : Option Carrier) (v : Nat) :
    let out := queuedClearance c r leader
    let a := (c.classes.get r.cls).decel
    let lat := r.speed * c.tLat / 1000
    let zones := (c.arms.get r.arrival).zones
    v ≤ out.2 ↔
      v ≤ 400 ∧ v ≤ (c.classes.get r.cls).limit ∧ v ≤ zoneLimit zones (zoneIndex zones r.distance)
      ∧ (∀ k z, k < zoneIndex zones r.distance → zones[k]? = some z →
          v ≤ isqrt (z.limit * z.limit + 2 * a * (r.distance - z.bound - lat)))
      ∧ (r.state = .granted → v ≤ isqrt (c.xlim * c.xlim + 2 * a * (r.distance - lat)))
      ∧ v ≤ isqrt (2 * a * (out.1 - c.margin - lat)) := by
  intro out a lat zones
  have terms : (∀ x ∈ zoneTerms a zones r.distance lat, v ≤ x) ↔
      ∀ k z, k < zoneIndex zones r.distance → zones[k]? = some z →
        v ≤ isqrt (z.limit * z.limit + 2 * a * (r.distance - z.bound - lat)) := by
    simp only [zoneTerms, List.forall_mem_map, List.mem_take_iff_getElem, approachSpeed, List.getElem?_eq_some_iff]
    constructor
    · rintro h k z hk ⟨hl, rfl⟩
      exact h _ ⟨k, by omega, rfl⟩
    · rintro h _ ⟨k, hk, rfl⟩
      exact h k _ (by omega) ⟨by omega, rfl⟩
  show v ≤ min 400 (List.foldl min _ _) ↔ _
  rw [le_min_iff, le_foldl_min]
  simp only [List.cons_append, List.mem_cons, List.mem_append, List.not_mem_nil, or_false, forall_eq_or_imp, or_imp,
    forall_and, forall_eq, approachSpeed, stoppingTerm, latency]
  rw [show r.speed * c.tLat / 1000 = lat from rfl, terms]
  by_cases granted : r.state = .granted <;> simp [granted, out, and_assoc, queuedClearance, latency, lat, a, zones]

theorem isqrt_zero : isqrt 0 = 0 := by rw [isqrt_eq_sqrt, Nat.sqrt_zero]

/-- What the ceiling of a CROSSING carrier lies below (R47). -/
theorem le_crossingCeiling (c : JunctionConfig) (cls : Fin 4) (i j : Arm) (v : Nat) :
    let out := crossingClearance c cls i j
    v ≤ out.2 ↔ v ≤ 400 ∧ v ≤ (c.classes.get cls).limit ∧ v ≤ c.xlim
      ∧ v ≤ isqrt (2 * (c.classes.get cls).decel * (out.1 - c.margin - c.xlim * c.tLat / 1000)) := by
  intro out
  show v ≤ min 400 (min (min _ _) _) ↔ _
  rw [le_min_iff, le_min_iff, le_min_iff, and_assoc]
  rfl

/-- Settles O23. -/
theorem authorityAndCeiling : Obligations.AuthorityAndCeiling := by
  refine ⟨zoneIndex_spec, fun c r leader => ⟨?_, ?_, le_queuedCeiling c r leader⟩,
    fun c cls i j => ⟨authority_alone _, le_crossingCeiling c cls i j⟩, fun c r leader => ?_, fun c cls i j => ?_⟩
  · rintro rfl
    by_cases granted : r.state = .granted <;>
      simp [queuedClearance, authority_alone, granted, beyondLine, Nat.add_assoc]
  · rintro l rfl
    by_cases granted : r.state = .granted <;>
      simp [queuedClearance, authority_behind, granted, beyondLine, leaderLimit, Int.add_assoc]
  · obtain ⟨least, cls, zone, -, -, stop⟩ := (le_queuedCeiling c r leader _).1 le_rfl
    refine ⟨fun waits => ?_, (authority_le _ _).2, least, cls, zone, fun none' => ?_⟩
    · refine le_trans (authority_le _ _).1 ?_
      simp [waits]
    · rw [none'] at stop
      simpa [isqrt_zero] using stop
  · obtain ⟨least, cls, box, stop⟩ := (le_crossingCeiling c cls i j _).1 le_rfl
    refine ⟨least, cls, box, fun none' => ?_⟩
    rw [none'] at stop
    simpa [isqrt_zero] using stop

end Sys2Proof.Machine

/-! ## What the arbiter reads, admission, and the direction table -/

namespace Sys2Proof.Machine

theorem condition_active_iff {g : SegEnd} : g.condition = .active ↔ g.unsure = false ∧ g.isolated = false := by
  unfold SegEnd.condition
  cases g.unsure <;> cases g.isolated <;> simp

theorem mem_cellSet_iff (i j k : Arm) : k ∈ cellSet i j ↔ (k - i).val < (j - i).val := by
  decide +revert

theorem cellSet_length (i j : Arm) : (cellSet i j).length = (j - i).val := by
  decide +revert

theorem closed_eq_false_iff {s : State} {i : Arm} : s.closed i = false ↔ s.closures.get i = ⟨false, false⟩ := by
  rw [State.closed]
  rcases s.closures.get i with ⟨operator, detector⟩
  simp

theorem inbound_iff {s : State} {i : Arm} : s.inbound i = true ↔
    s.present i = true ∧ (s.arm i).inbound = true ∧ s.closures.get i = ⟨false, false⟩ := by
  simp [State.inbound, closed_eq_false_iff, and_assoc]

theorem outbound_iff {s : State} {i : Arm} : s.outbound i = true ↔
    s.present i = true ∧ (s.arm i).outbound = true ∧ s.closures.get i = ⟨false, false⟩ := by
  simp [State.outbound, closed_eq_false_iff, and_assoc]

theorem takable_iff {id : CarrierId} {x : Cell} : x.takable id = true ↔ x = .free ∨ x = .reserved id := by
  cases x <;> simp [Cell.takable]

theorem cellsTakable_iff {s : State} {i j : Arm} {id : CarrierId} : s.cellsTakable i j id = true ↔
    ∀ k ∈ cellSet i j, s.cell k = .free ∨ s.cell k = .reserved id := by
  simp [State.cellsTakable, takable_iff]

theorem walkPermits_iff {s : State} {i j : Arm} : s.walkPermits i j = true ↔
    s.wkp.state = .closed ∨ s.walkArm i = false ∧ s.walkArm j = false := by
  unfold State.walkPermits
  cases s.wkp.state <;> simp [State.involvesWalk]

theorem routeOpen_iff {s : State} {c : Carrier} : s.routeOpen c = true ↔
    c.state = .waiting ∧ s.inbound c.arrival = true ∧ s.outbound c.exit = true
      ∧ (c.arrival ≠ c.exit ∧ ((s.cfg.paths.get c.arrival).get c.exit).permitted = true) ∧ s.admits c.exit = true := by
  simp [State.routeOpen, State.permitted, State.path, and_assoc]

theorem isOverdue_eq (s : State) (c : Carrier) : s.isOverdue c = decide (∃ o ∈ s.jar.overdue, o.id = c.id) := by
  unfold State.isOverdue
  cases s.jar.overdue <;> simp [beq_eq_decide]

theorem favours_eq (j : Jar) (c : Carrier) : j.favours c = (c.priority == (j.s1 == .priority)) := by
  unfold Jar.favours
  cases j.s1 <;> cases c.priority <;> rfl

/-- Settles O28. -/
theorem cellSetsEligibilityAndCandidates : Obligations.CellSetsEligibilityAndCandidates := by
  refine ⟨fun i j k => ⟨mem_cellSet_iff i j k, cellSet_length i j⟩, fun s i => ⟨inbound_iff, outbound_iff⟩,
    fun s c => ⟨routeOpen_iff, ?_⟩, fun s => ?_⟩
  · simp only [State.eligible, Bool.and_eq_true, routeOpen_iff, cellsTakable_iff, walkPermits_iff, and_assoc]
  · intro heads overdue favoured
    have isOverdue : s.isOverdue = overdue := funext (isOverdue_eq s)
    have favours : s.jar.favours = favoured := funext (favours_eq s.jar)
    simp only [State.candidates, isOverdue, favours, List.filter_filter, Bool.and_comm (favoured _),
      Bool.and_comm (!favoured _)]
    rfl

/-- Settles O38. -/
theorem admissionTable : Obligations.AdmissionTable := by
  intro i s present g active
  have admits : s.admits i = true ↔ active ∧ match s.role i with
      | .lock => g.dir = .outbound ∧ g.occ + g.r < s.effCapacity i
      | .spur => g.dir = .outbound ∧ g.occ + g.r < s.effCapacity i
      | .far => (s.nbr i).state = .live ∧ g.dirN = some .inbound ∧ s.heldValid i = true ∧ 1 ≤ g.headroom := by
    simp only [State.admits, present, Bool.true_and, Bool.and_eq_true, bne_iff_ne, beq_iff_eq, condition_active_iff, active]
    cases s.role i <;> simp [g, and_assoc]
  refine ⟨fun near => ?_, fun far => ?_⟩
  · rw [admits]
    rcases near with role | role <;> rw [role]
  · rw [admits, far]
    simp [State.heldValid, SegEnd.headroom, g]

/-! ### The direction table -/

/-- How many rows of the direction table can follow one another at most (R101). -/
def SegEnd.rowsLeft (own far : Nat) (g : SegEnd) : Nat :=
  match g.dir with
  | .free => if own = 0 ∧ far = 0 then 0 else 1
  | .outbound => if own = 0 ∧ g.occ = 0 ∧ g.r = 0 then 2 else if g.hold = .expired ∧ 0 < far then 3 else 0
  | .draining => 2
  | .inbound => if far = 0 ∨ (g.hold = .expired ∧ 0 < own) then 3 else 0
  | .closing => if 0 < own then 1 else 2

theorem rowsLeft_le (own far : Nat) (g : SegEnd) : g.rowsLeft own far ≤ 3 := by
  unfold SegEnd.rowsLeft
  repeat' split
  all_goals omega

theorem nextDirection_of_rowsLeft {own far : Nat} {g : SegEnd} (h : g.rowsLeft own far = 0) :
    g.nextDirection own far = none := by
  unfold SegEnd.rowsLeft at h
  unfold SegEnd.nextDirection
  cases dir : g.dir <;> simp only [dir] at h ⊢
  case free => simp_all
  case outbound => split at h <;> [omega; (rw [if_neg ‹_›]; split at h <;> simp_all)]
  case inbound => split at h <;> simp_all
  case closing => split at h <;> omega
  case draining => omega

/-- Each row leads to a direction from which fewer rows follow. -/
theorem rowsLeft_lt {own far : Nat} {g g' : SegEnd} {d : Direction} (row : g.nextDirection own far = some d)
    (dir : g'.dir = d) (hold : g'.hold ≠ .expired) :
    g'.rowsLeft own far < g.rowsLeft own far := by
  unfold SegEnd.nextDirection at row
  unfold SegEnd.rowsLeft
  cases was : g.dir <;> simp only [was] at row ⊢ <;> grind

theorem enterDirection_eq (d : Direction) (g : SegEnd) : g.enterDirection d = { g with
    dir := d
    hold := if d = .outbound ∨ d = .inbound then .running 0 else .stopped
    last := if d = .outbound then .outbound else if d = .inbound then .inbound else g.last } := by
  cases d <;> rfl

theorem relimit_fields (s : State) (i : Arm) (old new : SegEnd) : ∃ limit, s.relimit i old new = { new with limit } := by
  unfold State.relimit
  split
  · exact ⟨_, rfl⟩
  split <;> exact ⟨_, rfl⟩

/-- The rows that can follow in the state, with own and far demand. -/
def State.rowsLeft (s : State) (i : Arm) : Nat := (s.seg i).rowsLeft (s.demand i) (s.farDemand i)

/-- The row of the direction table that applies in the state. -/
def State.row (s : State) (i : Arm) : Option Direction := (s.seg i).nextDirection (s.demand i) (s.farDemand i)

/-- The entry into a direction changes neither demand, nor whether the direction is evaluated. -/
theorem entered_same (s : State) (i : Arm) (d : Direction) : let t := s.modSeg i (SegEnd.enterDirection d)
    t.demand i = s.demand i ∧ t.farDemand i = s.farDemand i ∧ t.steers i = s.steers i := by
  intro t
  have seg : t.seg i = s.relimit i (s.seg i) ((s.seg i).enterDirection d) := by
    rw [seg_modSeg, if_pos rfl]
  obtain ⟨limit, e⟩ := relimit_fields s i (s.seg i) ((s.seg i).enterDirection d)
  rw [e, enterDirection_eq] at seg
  refine ⟨rfl, ?_, ?_⟩
  · show (match s.role i with | .lock => (t.seg i).demN | .far => (t.seg i).demN | .spur => 0) = _
    rw [seg]
    rfl
  · show (s.present i && s.role i != .far && (s.fixedDirection i).isNone && (t.seg i).condition == .active
      && s.part != .faulted) = _
    rw [seg]
    rfl

theorem rowsLeft_entered {s : State} {i : Arm} {d : Direction} (row : s.row i = some d) :
    (s.modSeg i (SegEnd.enterDirection d)).rowsLeft i < s.rowsLeft i := by
  obtain ⟨demand, far, -⟩ := entered_same s i d
  obtain ⟨limit, e⟩ := relimit_fields s i (s.seg i) ((s.seg i).enterDirection d)
  rw [State.rowsLeft, demand, far]
  refine rowsLeft_lt row ?_ ?_ <;> rw [seg_modSeg, if_pos rfl, e, enterDirection_eq]
  dsimp only
  split <;> simp

theorem steer_none {n : Nat} {i : Arm} {s : State} (row : s.row i = none) : s.steer (n + 1) i = s := by
  rw [State.steer, show (s.seg i).nextDirection (s.demand i) (s.farDemand i) = none from row]

theorem steer_some {n : Nat} {i : Arm} {s : State} {d : Direction} (row : s.row i = some d) :
    s.steer (n + 1) i = (s.modSeg i (SegEnd.enterDirection d)).steer n i := by
  rw [State.steer, show (s.seg i).nextDirection (s.demand i) (s.farDemand i) = some d from row]

/-- Once as many rows are tried as can follow, no further try changes anything, and no row applies. -/
theorem steer_settles (n : Nat) (i : Arm) (s : State) (enough : s.rowsLeft i ≤ n) :
    s.steer (n + 1) i = s.steer n i ∧ (s.steer n i).row i = none := by
  induction n generalizing s with
  | zero =>
    have none' : s.row i = none := nextDirection_of_rowsLeft (Nat.le_zero.1 enough)
    refine ⟨?_, none'⟩
    rw [steer_none none']
    rfl
  | succ n ih =>
    cases row : s.row i with
    | none => rw [steer_none row, steer_none row]; exact ⟨rfl, row⟩
    | some d =>
      rw [steer_some row, steer_some row]
      exact ih _ (Nat.le_of_lt_succ ((rowsLeft_entered row).trans_le enough))

theorem evaluate_of_not_steers {s : State} {i : Arm} (h : s.steers i = false) : s.evaluate i = s := by
  simp [State.evaluate, h]

theorem evaluate_of_steers {s : State} {i : Arm} (h : s.steers i = true) :
    (s.row i = none → s.evaluate i = s)
    ∧ (∀ d, s.row i = some d → s.evaluate i = (s.modSeg i (SegEnd.enterDirection d)).evaluate i)
    ∧ (s.evaluate i).row i = none := by
  have evaluate : s.evaluate i = s.steer 4 i := if_pos h
  refine ⟨fun none' => ?_, fun d row => ?_, ?_⟩
  · rw [evaluate, steer_none none']
  · rw [evaluate, steer_some row, State.evaluate, (entered_same s i d).2.2, if_pos h]
    exact ((steer_settles 3 i _ (rowsLeft_le _ _ _)).1).symm
  · rw [evaluate]
    exact (steer_settles 4 i s ((rowsLeft_le _ _ _).trans (by omega))).2

theorem steers_iff {s : State} {i : Arm} : s.steers i = true ↔ s.present i = true ∧ s.role i ≠ .far
    ∧ s.fixedDirection i = none ∧ (s.seg i).unsure = false ∧ (s.seg i).isolated = false ∧ s.part ≠ .faulted := by
  simp [State.steers, condition_active_iff, and_assoc]

theorem limitOpen_iff {s : State} {i : Arm} {g : SegEnd} : s.limitOpen i g = true ↔
    s.role i = .lock ∧ g.unsure = false ∧ g.isolated = false ∧ s.part ≠ .faulted ∧ g.dir = .inbound := by
  simp [State.limitOpen, condition_active_iff, and_assoc]

theorem nextDirection_table (g : SegEnd) (own far : Nat) :
    (g.dir = .free → g.nextDirection own far =
        if own = 0 ∧ far = 0 then none
        else if far = 0 ∨ (own ≠ 0 ∧ g.last = .inbound) then some .outbound else some .inbound)
    ∧ (g.dir = .outbound → g.nextDirection own far =
        if own = 0 ∧ g.occ = 0 ∧ g.r = 0 then some (if far = 0 then .free else .inbound)
        else if g.hold = .expired ∧ far ≠ 0 then some .draining else none)
    ∧ (g.dir = .draining → g.nextDirection own far =
        if g.occ = 0 ∧ g.r = 0 then some (if far = 0 then .free else .inbound) else none)
    ∧ (g.dir = .inbound → g.nextDirection own far =
        if far = 0 ∨ (g.hold = .expired ∧ own ≠ 0) then some .closing else none)
    ∧ (g.dir = .closing → g.nextDirection own far =
        if g.handshakeDone = true then some (if own = 0 then .free else .outbound) else none) := by
  unfold SegEnd.nextDirection
  refine ⟨fun dir => ?_, fun dir => ?_, fun dir => ?_, fun dir => ?_, fun dir => ?_⟩ <;> rw [dir] <;> dsimp only
  · cases g.last <;> rcases Nat.eq_zero_or_pos own with rfl | own <;> rcases Nat.eq_zero_or_pos far with rfl | far <;>
      simp [*, Nat.pos_iff_ne_zero.1]
  all_goals
    rcases Nat.eq_zero_or_pos own with rfl | own <;> rcases Nat.eq_zero_or_pos far with rfl | far <;>
      simp [*, Nat.pos_iff_ne_zero.1]

/-- Settles O37. -/
theorem directionTableAndLimit : Obligations.DirectionTableAndLimit := by
  refine ⟨fun g own far => ?_, fun i s => ⟨steers_iff, evaluate_of_not_steers, evaluate_of_steers, fun g => limitOpen_iff,
    fun f => ?_⟩⟩
  · obtain ⟨free, outbound, draining, inbound, closing⟩ := nextDirection_table g own far
    refine ⟨?_, free, outbound, draining, inbound, closing, fun d => enterDirection_eq d g⟩
    simp [SegEnd.handshakeDone, and_assoc]
  · have capacity : ((f (s.seg i)).capN.map (min (s.arm i).capacity)).getD (s.arm i).capacity
        = (f (s.seg i)).capacity (s.arm i).capacity := by
      unfold SegEnd.capacity
      cases (f (s.seg i)).capN <;> rfl
    dsimp only
    rw [capacity]
    rfl

end Sys2Proof.Machine

/-! ## Carriers that no queue holds, what goes out on a link, and silence -/

namespace Sys2Proof.Machine

theorem crossingOf_isSome {s : State} {id : CarrierId} : (s.crossingOf id).isSome = true ↔
    ∃ i m, s.move i = some m ∧ ∃ e ∈ m.carriers, e.id = id ∧ e.isCrossing = true := by
  unfold State.crossingOf
  simp only [List.find?_isSome, Arm.mem_list, true_and]
  refine exists_congr fun i => ?_
  cases s.move i <;> simp [Entry.isCrossing]

theorem inBox_iff {s : State} {id : CarrierId} :
    ((s.crossingOf id).isSome || s.inUnmatched id) = true ↔ inBox s id := by
  rw [Bool.or_eq_true, crossingOf_isSome, inUnmatched_iff]
  rfl

theorem queuedOn_of_unqueued {s : State} {id : CarrierId} (h : ∀ i, ∀ c ∈ s.queue i, c.id ≠ id) : s.queuedOn id = none := by
  rw [← Option.not_isSome_iff_eq_none, queuedOn_isSome]
  rintro ⟨i, c, hc, e⟩
  exact h i c hc e

theorem heardOn_clearance (link : Arm) (id : CarrierId) (s : State) :
    (s.huntLink link).clearanceDue link id = s.heardOn link (withClearance id (s.aqu.sends.get link)) := clearanceDue_eq ..

theorem exec_withdraw {link : Arm} {id : CarrierId} {s : State} (released : s.scu.rstHeld = false)
    (part : s.part = .recovering ∨ s.part = .running) (present : s.present link = true) :
    Does (.withdraw link id) s (State.handleWithdraw link id (s.huntLink link)) := by
  show Host.Outcome.next (s.event _) = _
  rw [event_of_released released, onMessage_handled present part]

theorem handlePosition_unqueued {link : Arm} {id : CarrierId} {d v : Nat} {s : State} (h : s.queuedOn id = none) :
    State.handlePosition link id d v s =
      if (s.crossingOf id).isSome || s.inUnmatched id then s.clearanceDue link id else s.refusalDue link id .unknown := by
  unfold State.handlePosition
  rw [h]

theorem handleWithdraw_unqueued {link : Arm} {id : CarrierId} {s : State} (h : s.queuedOn id = none) :
    State.handleWithdraw link id s = s.refusalDue link id
      (if (s.crossingOf id).isSome || s.inUnmatched id then .committed else .unknown) := by
  unfold State.handleWithdraw
  rw [h, apply_ite (s.refusalDue link id)]

/-- Settles O19. -/
theorem messagesOfUnqueuedCarriers : Obligations.MessagesOfUnqueuedCarriers := by
  intro link id d v s released part present unqueued with_ l
  have position := exec_position (id := id) (d := d) (v := v) released part present
  have withdraw := exec_withdraw (id := id) released part present
  have none' : (s.huntLink link).queuedOn id = none := queuedOn_of_unqueued unqueued
  rw [handlePosition_unqueued none'] at position
  rw [handleWithdraw_unqueued none'] at withdraw
  refine ⟨fun boxed => ?_, fun free => ?_⟩
  · have boxed' := inBox_iff.2 (show inBox (s.huntLink link) id from boxed)
    rw [if_pos boxed'] at position withdraw
    exact ⟨by rwa [heardOn_clearance] at position, by rwa [heardOn_refusal] at withdraw⟩
  · have free' := mt inBox_iff.1 (show ¬ inBox (s.huntLink link) id from free)
    rw [if_neg free'] at position withdraw
    exact ⟨by rwa [heardOn_refusal] at position, by rwa [heardOn_refusal] at withdraw⟩

/-! ### Sending -/

theorem crc8Bit_eq (c : Byte) : Layout.crc8Bit c = if c.getMsbD 0 = true then (c <<< 1) ^^^ 0x07 else c <<< 1 := by
  rw [Layout.crc8Bit, BitVec.msb]

/-- The place of a record in a list, with its leader (R37, R42). -/
theorem placeOf_append {id : CarrierId} {front behind : List Carrier} {c : Carrier} (hid : c.id = id)
    (first : ∀ r ∈ front, r.id ≠ id) (place : Nat) (leader : Option Carrier) :
    placeOf id place leader (front ++ c :: behind) =
      some (place + front.length, c, if front = [] then leader else front.getLast?) := by
  induction front generalizing place leader with
  | nil => rw [List.nil_append, placeOf, if_pos hid]; rfl
  | cons r front ih =>
    obtain ⟨head, rest⟩ := List.forall_mem_cons.1 first
    rw [List.cons_append, placeOf, if_neg head, ih rest, List.length_cons, if_neg (List.cons_ne_nil _ _),
      List.getLast?_cons, Nat.add_right_comm, Nat.add_assoc]
    cases h : front.getLast? with
    | none => simp [List.getLast?_eq_none_iff.1 h]
    | some d => rw [if_neg (by rintro rfl; simp at h)]; rfl

theorem buildClearance_unqueued {s : State} {id : CarrierId} (h : s.queuedOn id = none) : s.buildClearance id =
    match (s.crossingOf id).bind fun i => (s.move i).bind fun m =>
        (m.carriers.find? fun e => e.id == id && e.isCrossing).map fun e => (i, m.exit, e.cls) with
    | some (i, j, cls) => some (.clearance id true 0 (crossingClearance s.cfg cls i j).1 (crossingClearance s.cfg cls i j).2)
    | none => if s.inUnmatched id then some (.clearance id false 0 0 0) else none := by
  unfold State.buildClearance
  rw [h]
  rfl

/-- Settles O21. -/
theorem sendItemsAndClearanceContents : Obligations.SendItemsAndClearanceContents := by
  refine ⟨fun id go place auth ceiling reason => ⟨rfl, ?_⟩, fun m => rfl, fun l b => ⟨rfl, ?_⟩,
    fun link id reason rest s released => ⟨fun front => ?_, fun front => ?_, fun empty => ?_⟩, fun id s =>
      ⟨fun i front c behind queued queue hid first => ?_, fun i m e unqueued crossing move found => ?_, fun unqueued none' => ?_⟩⟩
  · cases reason <;> rfl
  · simp only [Layout.crc8, List.foldl_append, List.foldl_cons, List.foldl_nil, Layout.crc8Byte, ← crc8Bit_eq]
    rfl
  · show Host.Outcome.next (s.plainEvent _) = _
    rw [plainEvent_of_released released, front]
    rfl
  · show Host.Outcome.next (s.plainEvent _) = _
    rw [plainEvent_of_released released, front]
    dsimp only
    cases s.buildClearance id <;> rfl
  · refine ⟨?_, ?_⟩
    all_goals
      show Host.Outcome.next (s.plainEvent _) = _
      rw [plainEvent_of_released released, empty]
  · unfold State.buildClearance
    rw [queued, Option.bind_some, queue, placeOf_append hid first, Nat.add_comm 1]
    cases front <;> rfl
  · rw [buildClearance_unqueued (queuedOn_of_unqueued unqueued), crossing, Option.bind_some, move, Option.bind_some, found]
    rfl
  · rw [buildClearance_unqueued (queuedOn_of_unqueued unqueued), none', Option.bind_none]
    simp only [inUnmatched_iff]

/-! ### Silence -/

theorem exec_carrierMute {id : CarrierId} {i : Arm} {c : Carrier} {s : State} (released : s.scu.rstHeld = false)
    (queued : s.queuedOn id = some i) (record : s.recordOn i id = some c) :
    Does (.carrierMute id) s
      (if c.silent then s else (s.onRecord i id (Carrier.fallSilent s.cfg.carrierSilence)).raise .carrierMute) := by
  show Host.Outcome.next (s.event _) = _
  rw [event_of_released released, queued]
  dsimp only
  rw [record]

/-- Settles O22. -/
theorem carrierMute : Obligations.CarrierMute := by
  intro id i c s released spares queued record
  have does := exec_carrierMute released queued record
  refine ⟨fun silent => by rwa [if_pos silent] at does, fun hears => ⟨_, by rwa [if_neg (by simp [hears])] at does, ?_⟩⟩
  have same : ∀ r, (Carrier.fallSilent s.cfg.carrierSilence r).id = r.id := fun _ => rfl
  obtain ⟨-, xu, aqu⟩ := onRecord_spared spares (Carrier.fallSilent s.cfg.carrierSilence)
  obtain ⟨scu, closures, -, -, wkp, -⟩ := onRecord_keeps i id (Carrier.fallSilent s.cfg.carrierSilence) s
  have mtp : (s.onRecord i id (Carrier.fallSilent s.cfg.carrierSilence)).mtp = s.mtp := by simp
  generalize s.onRecord i id (Carrier.fallSilent s.cfg.carrierSilence) = u at xu aqu scu closures wkp mtp ⊢
  obtain ⟨scu', aqu', closures', xu', -, wkp', mtp', -⟩ := finish_keeps s (u.raise .carrierMute)
  have queue : ∀ j, (State.finish s (u.raise .carrierMute)).queue j
      = if i = j then updateRecord id (Carrier.fallSilent s.cfg.carrierSilence) (s.queue i) else s.queue j := fun j => by
    rw [State.queue, aqu']
    exact queue_of_set (congrArg Aqu.queues aqu) j
  refine ⟨?_, ?_, fun j hj => by rw [queue, if_neg (Ne.symm hj)], ?_, ?_, xu'.trans xu, scu'.trans scu,
    closures'.trans closures, wkp'.trans wkp⟩
  · rw [State.recordOn, queue, if_pos rfl, find_updateRecord id _ same, ← State.recordOn, record]
    rfl
  · rw [queue, if_pos rfl, updateRecord_ids _ _ same]
  · rw [mtp', State.raise, mtp]
  · rw [aqu']
    show u.aqu.sends = _
    rw [aqu]

end Sys2Proof.Machine

/-! ## Closure cause sets, and the walkway -/

namespace Sys2Proof.Machine

/-- A closure cause set grows, and the designation that its arm was open for ends (R3, R85). -/
theorem close_eq (i : Arm) (f : Closure → Closure) (s : State) :
    let closed : State := { s with closures := s.closures.set i (f (s.closures.get i)) }
    (ClosingEndsDesignation s i → s.close i f = closed.endOverdue) ∧ (¬ ClosingEndsDesignation s i → s.close i f = closed) := by
  intro closed
  have hclosed : closed.jar.overdue = s.jar.overdue := rfl
  unfold ClosingEndsDesignation State.close
  cases h : s.jar.overdue with
  | none => simp [h, closed]
  | some o =>
    dsimp only
    rw [h]
    dsimp only
    by_cases here : s.closed i = false ∧ (o.arrival = i ∨ o.exit = i)
    · rw [if_pos (by simpa using here)]
      exact ⟨fun _ => rfl, fun stays => absurd ⟨here.1, o, rfl, here.2⟩ stays⟩
    · rw [if_neg (by simpa using here)]
      refine ⟨fun ⟨wasOpen, o', ho, his⟩ => ?_, fun _ => rfl⟩
      obtain rfl := Option.some.inj ho
      exact absurd ⟨wasOpen, his⟩ here

theorem closeForDetector_eq (i : Arm) (s : State) :
    let failed : State := { s with
      mtp := { s.mtp with flags := s.mtp.flags ||| EventKind.detectorFault.mask }
      closures := s.closures.set i { s.closures.get i with detector := true } }
    (ClosingEndsDesignation s i → s.closeForDetector i = failed.endOverdue)
    ∧ (¬ ClosingEndsDesignation s i → s.closeForDetector i = failed) :=
  close_eq i (fun c => { c with detector := true }) (s.raise .detectorFault)

/-- Settles O34. -/
theorem detectorFault : Obligations.DetectorFault := by
  intro s released
  have does (input : Input) (u : State → State) (h : exec (.detectorFault input) s = .next (s.event u)) :
      Does (.detectorFault input) s (u s) := h.trans (by rw [event_of_released released])
  refine ⟨fun i runs => ?_, fun j runs => ?_, fun runs => ?_, fun i stands => ?_, fun j stands => ?_, fun stands => ?_⟩
  · have entry := does (.ent i) _ rfl
    dsimp only at entry
    rw [if_pos runs] at entry
    obtain ⟨ends, stays⟩ := closeForDetector_eq i
      { s with xu := { s.xu with ent := s.xu.ent.set i (s.xu.ent.get i).fail } }
    exact ⟨fun h => by rwa [ends h] at entry, fun h => by rwa [stays h] at entry⟩
  · have exit := does (.ext j) _ rfl
    dsimp only at exit
    rw [if_pos runs] at exit
    obtain ⟨ends, stays⟩ := closeForDetector_eq j
      { s with xu := { s.xu with ext := s.xu.ext.set j (s.xu.ext.get j).fail } }
    exact ⟨fun h => by rwa [ends h] at exit, fun h => by rwa [stays h] at exit⟩
  · have box := does .box _ rfl
    dsimp only at box
    rwa [if_pos runs] at box
  · have entry := does (.ent i) _ rfl
    dsimp only at entry
    rwa [if_neg (by simp [stands])] at entry
  · have exit := does (.ext j) _ rfl
    dsimp only at exit
    rwa [if_neg (by simp [stands])] at exit
  · have box := does .box _ rfl
    dsimp only at box
    rwa [if_neg (by simp [stands])] at box

/-! ### Acting commands -/

theorem trigger_eq (s : State) : s.trigger = { s with jar := { s.jar with due := s.jar.due || s.granting } } := by
  unfold State.trigger
  cases h : s.granting <;> simp

theorem act_eq {s : State} (working : s.part.working = true) (code : Byte) (owner : State → Verdict) :
    State.act code owner s = Verdict.settle code (owner s) := by
  unfold State.act
  rw [show s.part.acting = true from working, if_pos rfl]

theorem armOf_of_le {b : Byte} (h : 4 ≤ b.toNat) : armOf b = none := dif_neg (by omega)

theorem armOf_eq {b : Byte} {i : Arm} (h : b.toNat = i.val) : armOf b = some i := by
  unfold armOf
  rw [dif_pos (h ▸ i.isLt)]
  exact congrArg some (Fin.ext h)

theorem onArm_none {b : Byte} {owner : Arm → State → Verdict} {s : State} (h : 4 ≤ b.toNat) :
    State.onArm b owner s = .refused .badArgument s := by
  unfold State.onArm
  rw [armOf_of_le h]

theorem onArm_absent {b : Byte} {i : Arm} {owner : Arm → State → Verdict} {s : State} (h : b.toNat = i.val)
    (absent : s.present i = false) : State.onArm b owner s = .refused .badArgument s := by
  unfold State.onArm
  rw [armOf_eq h]
  simp [absent]

theorem onArm_present {b : Byte} {i : Arm} {owner : Arm → State → Verdict} {s : State} (h : b.toNat = i.val)
    (present : s.present i = true) : State.onArm b owner s = owner i s := by
  unfold State.onArm
  rw [armOf_eq h]
  simp [present]

/-- An acting command in LISTENING to FAULTED: what its owner answers, with the response in the buffer. -/
theorem does_act {c : Instr} {code : Byte} {owner : State → Verdict} {s : State} (released : s.scu.rstHeld = false)
    (working : s.part.working = true) (h : exec c s = .next (s.event (State.act code owner))) :
    Does c s (Verdict.settle code (owner s)) := by
  rw [event_of_released released, act_eq working] at h
  exact h

/-- Settles O53. -/
theorem closeAndOpenArm : Obligations.CloseAndOpenArm := by
  intro b s released working
  have close : Does (.closeArm b) s _ := does_act released working rfl
  have opens : Does (.openArm b) s _ := does_act released working rfl
  refine ⟨fun none' => ?_, fun i hi => ?_⟩
  · rw [onArm_none none'] at close opens
    exact ⟨close, opens⟩
  intro closed
  refine ⟨fun absent => ?_, fun present ends => ?_, fun present stays => ?_, fun present detector active => ?_,
    fun present clear shut => ?_, fun present stands => ?_⟩
  · rw [onArm_absent hi absent] at close opens
    exact ⟨close, opens⟩
  · rw [onArm_present hi present, (close_eq i _ s).1 ends] at close
    exact close
  · rw [onArm_present hi present, (close_eq i _ s).2 stays] at close
    exact close
  · rw [onArm_present hi present, State.openArm, if_pos (by simp [detector, active])] at opens
    exact opens
  · rw [onArm_present hi present, State.openArm, if_neg (by simpa using clear), if_pos shut, trigger_eq] at opens
    exact opens
  · rw [onArm_present hi present, State.openArm, if_neg (by
      rw [State.closed, Bool.or_eq_false_iff] at stands
      simp [stands.2]), if_neg (by simp [stands])] at opens
    exact opens

/-! ### The walkway -/

theorem startInterval_eq (s : State) : s.startInterval =
    { s with wkp := { s.wkp with interval := if s.walkWorking && s.granting then .running 0 else s.wkp.interval } } := by
  unfold State.startInterval State.modWkp
  split <;> rfl

/-- The latch point of a cycle (R143), where the walkway works and the junction is not held, as far as it matters. -/
theorem latchPoint_eq {s : State} (skips : s.wkp.stagedW = 0 → s.granting = true ∧ s.walkWorking = true)
    (begins : s.wkp.stagedW ≠ 0 → s.granting = true ∨ s.walkwayClear = false) :
    s.latchPoint = { s with
      wkp := Wkp.latched s.walkwayClear s.wkp
      jar := { s.jar with due := s.jar.due || (s.walkwayClear && 0 < s.wkp.stagedW) } } := by
  unfold State.latchPoint Wkp.latched
  dsimp only [State.modWkp]
  by_cases h : s.wkp.stagedW = 0
  · obtain ⟨granting, works⟩ := skips h
    rw [if_pos h, if_pos h, startInterval_eq]
    dsimp only
    have : (State.walkWorking { s with wkp := { s.wkp with
        latchedP := s.wkp.stagedP, latchedW := s.wkp.stagedW, request := false, interval := .stopped } }
      && State.granting { s with wkp := { s.wkp with
        latchedP := s.wkp.stagedP, latchedW := s.wkp.stagedW, request := false, interval := .stopped } }) = true :=
      Bool.and_eq_true_iff.2 ⟨works, granting⟩
    rw [this]
    simp [h]
  · rw [if_neg h, if_neg h]
    unfold State.openTest
    generalize hu : ({ s with wkp := { s.wkp with
        latchedP := s.wkp.stagedP, latchedW := s.wkp.stagedW, state := .closing, interval := .stopped,
        clearance := .running 0 } } : State) = u
    have state : u.wkp.state = .closing := by rw [← hu]
    have granting : u.granting = s.granting := by rw [← hu]; rfl
    have clear : u.walkwayClear = s.walkwayClear := by rw [← hu]; rfl
    rw [state, granting, clear]
    cases hc : s.walkwayClear
    · simp [← hu]
    · have grants : s.granting = true := (begins h).resolve_right (by simp [hc])
      rw [if_pos (by simp [grants]), trigger_eq]
      have granting' : State.granting (u.modWkp fun w => { w with
          state := .opened, clearance := .stopped, opening := .running 0, request := false }) = s.granting := granting
      rw [granting', grants]
      simp [← hu, State.modWkp, Nat.pos_of_ne_zero h]

theorem does_intervalExpiry {s : State} (released : s.scu.rstHeld = false) (runs : s.wkp.interval.isRunning = true) :
    Does .intervalExpiry s s.intervalEnds := by
  show Host.Outcome.next (s.event _) = _
  rw [event_of_released released, if_pos runs]

theorem intervalEnds_cyclic {s : State} (cyclic : s.cfg.walkMode = .cyclic) : s.intervalEnds = s.latchPoint := by
  unfold State.intervalEnds
  rw [cyclic]

/-- Settles O47. -/
theorem walkwayTimers : Obligations.WalkwayTimers := by
  intro s released
  refine ⟨fun runs cyclic staged blocked => ?_, fun runs cyclic staged clear granting => ?_,
    fun runs cyclic staged granting works => ?_, fun runs onDemand request => ?_,
    fun runs onDemand request granting works => ?_, fun closing runs => ?_, fun opened runs granting works => ?_⟩
  · have does := does_intervalExpiry released runs
    rw [intervalEnds_cyclic cyclic, latchPoint_eq (by omega) fun _ => .inr blocked, blocked] at does
    simpa [Wkp.latched, staged.ne'] using does
  · have does := does_intervalExpiry released runs
    rw [intervalEnds_cyclic cyclic, latchPoint_eq (by omega) fun _ => .inl granting, clear] at does
    simpa [Wkp.latched, staged.ne', staged] using does
  · have does := does_intervalExpiry released runs
    rw [intervalEnds_cyclic cyclic, latchPoint_eq (fun _ => ⟨granting, works⟩) (by omega)] at does
    simpa [Wkp.latched, staged] using does
  · have does := does_intervalExpiry released runs
    unfold State.intervalEnds at does
    rw [onDemand] at does
    simpa [State.modWkp, request] using does
  · have does := does_intervalExpiry released runs
    unfold State.intervalEnds at does
    rw [onDemand] at does
    dsimp only [State.modWkp] at does
    rw [if_pos request, latchPoint_eq (s := { s with wkp := { s.wkp with interval := .expired } })
      (fun _ => ⟨granting, works⟩) fun _ => .inl granting] at does
    exact does
  · show Host.Outcome.next (s.event _) = _
    rw [event_of_released released, if_pos (by simp [closing, runs])]
    rfl
  · show Host.Outcome.next (s.event _) = _
    rw [event_of_released released, if_pos (by simp [opened, runs]), trigger_eq, startInterval_eq]
    have works' : State.walkWorking (s.modWkp fun w => { w with state := .closed, opening := .stopped }) = true := works
    have grants' : State.granting (s.modWkp fun w => { w with state := .closed, opening := .stopped }) = true := granting
    have grants : ∀ w : Wkp, State.granting { s with wkp := w } = true := fun _ => granting
    rw [works', grants']
    simp [State.modWkp, grants]

end Sys2Proof.Machine

/-! ## The transmitter, and the walkway's OPEN test -/

namespace Sys2Proof.Machine

/-- Nothing that a report says lies on the floor line or at the maintenance port. -/
theorem reportChanged_lines (s : State) (fli : Fli) (mtp : Mtp) :
    State.reportChanged s { s with fli := fli, mtp := mtp } = false := by
  rw [← Bool.not_eq_true, reportChanged_iff]
  rintro ⟨-, -, part | beacon | ⟨i, -, e | x | r | dir | ⟨-, entry⟩⟩⟩
  · exact part rfl
  · exact beacon rfl
  · exact e rfl
  · exact x rfl
  · exact r rfl
  · exact dir rfl
  · exact entry rfl

theorem transmits_of_does {c : Instr} {s : State} {fli : Fli} {mtp : Mtp}
    (h : Does c s { s with fli := fli, mtp := mtp }) : Transmits c s { s with fli := fli, mtp := mtp } := by
  have waits := finish_changeWaiting s { s with fli := fli, mtp := mtp }
  rw [reportChanged_lines, Bool.or_false] at waits
  have tx := finish_tx s { s with fli := fli, mtp := mtp }
  rw [waits] at tx
  exact ⟨_, h, rfl, fun due => by rw [tx, if_pos (by exact due)], fun free => by rw [tx, if_neg (by exact free)]⟩

theorem exec_event_if {c : Instr} {s u : State} {p : State → Bool} {f : State → State} (released : s.scu.rstHeld = false)
    (h : exec c s = .next (s.event fun s => if p s then f s else s)) (holds : p s = true) (hu : f s = u) : Does c s u := by
  rw [event_of_released released, if_pos holds, hu] at h
  exact h

/-- Settles O42. -/
theorem attemptSentOrLost : Obligations.AttemptSentOrLost := by
  refine ⟨fun address attempts => ?_, fun s released => ⟨fun k pending waiting idle => ?_, fun waiting busy => ?_,
    fun sending => ?_, fun sending few kept => ?_, fun sending dropped => ?_, fun sending many kept => ?_,
    fun backoff runs => ?_⟩⟩
  · have := Nat.mod_lt (address + 5 * attempts) (show 0 < 16 by decide)
    refine ⟨?_, ?_, rfl⟩ <;> rw [backoffLength] <;> omega
  · apply transmits_of_does (mtp := s.mtp)
    show Host.Outcome.next (s.event _) = _
    rw [event_of_released released, pending]
    dsimp only
    rw [if_pos (by simp [waiting, idle])]
    cases k <;> rfl
  · apply transmits_of_does (fli := s.fli) (mtp := s.mtp)
    show Host.Outcome.next (s.event _) = _
    rw [event_of_released released]
    cases s.fli.tx.pending with
    | none => rfl
    | some k => dsimp only; rw [if_neg (by simp [busy])]
  · apply transmits_of_does (mtp := s.mtp)
    exact exec_event_if released rfl (by simp [sending]) rfl
  · apply transmits_of_does (mtp := s.mtp)
    refine exec_event_if released rfl (by simp [sending]) ?_
    rw [State.loseLine, if_neg fun h => h.2 (kept h.1), if_neg (by omega)]
    rfl
  · apply transmits_of_does (mtp := s.mtp)
    refine exec_event_if released rfl (by simp [sending]) ?_
    rw [State.loseLine, if_pos dropped]
    rfl
  · apply transmits_of_does (mtp := s.mtp)
    refine exec_event_if released rfl (by simp [sending]) ?_
    rw [State.loseLine, if_neg fun h => h.2 (kept h.1), if_pos many]
    rfl
  · apply transmits_of_does (mtp := s.mtp)
    exact exec_event_if released rfl (by simp [backoff, runs]) rfl

/-- Settles O43. -/
theorem transmitterTimers : Obligations.TransmitterTimers := by
  intro s released
  refine ⟨fun runs idle => ?_, fun runs waits report => ?_, fun runs stays => ?_, fun runs => ?_, fun runs unraised => ?_,
    fun raised => ?_⟩
  · apply transmits_of_does (mtp := s.mtp)
    refine exec_event_if released rfl runs ?_
    unfold State.periodicEnds
    dsimp only [State.modTx]
    rw [idle]
    rfl
  · apply transmits_of_does (mtp := s.mtp)
    refine exec_event_if released rfl runs ?_
    unfold State.periodicEnds
    dsimp only [State.modTx]
    rcases waits with state | state <;> rw [state] <;> dsimp only <;> rw [if_pos report] <;>
      simp only [Transmitter.replaceReport, Transmitter.noteAbandoned, report]
  · apply transmits_of_does (mtp := s.mtp)
    refine exec_event_if released rfl runs ?_
    unfold State.periodicEnds
    dsimp only [State.modTx]
    rcases stays with state | ⟨state | state, request⟩
    · rw [state]
    all_goals
      rw [state]
      dsimp only
      rw [if_neg (by simp [request])]
  · apply transmits_of_does (mtp := s.mtp)
    exact exec_event_if released rfl runs rfl
  · apply transmits_of_does
    exact exec_event_if released rfl (by simp [runs, unraised]) rfl
  · apply transmits_of_does (fli := s.fli) (mtp := s.mtp)
    show Host.Outcome.next (s.event _) = _
    rw [event_of_released released, if_neg (by simp [raised])]

/-! ### The OPEN test -/

theorem walkwayClear_iff (s : State) : s.walkwayClear = true ↔
    s.xu.unmatched = [] ∧ ∀ k m, s.move k = some m → s.walkArm k = false ∧ s.walkArm m.exit = false := by
  simp only [State.walkwayClear, Bool.and_eq_true, List.isEmpty_iff, List.all_eq_true, Arm.mem_list, forall_const]
  refine and_congr_right fun _ => forall_congr' fun k => ?_
  cases s.move k <;> simp [State.involvesWalk]

/-- The OPEN test, made in a state whose walkway, grants and walkway arms are those of `s` (R145). -/
theorem walkTested_openTest {s u : State} {l : List Unmatched} {ended : Option Arm} (wkp : u.wkp = s.wkp)
    (granting : u.granting = s.granting) (cfg : u.cfg = s.cfg) (unmatched : u.xu.unmatched = l)
    (moves : ∀ k, u.move k = if some k = ended then none else s.move k) :
    WalkTested (s.walkOpens l ended) s u.openTest := by
  have walkArm (k : Arm) : u.walkArm k = s.walkArm k := by
    simp only [State.walkArm, State.present, State.arm, cfg]
  have opens : (u.wkp.state == .closing && u.granting && u.walkwayClear) = true ↔ s.walkOpens l ended := by
    simp only [Bool.and_eq_true, beq_iff_eq, walkwayClear_iff, wkp, granting, unmatched, moves, walkArm, and_assoc,
      State.walkOpens]
    refine and_congr_right fun _ => and_congr_right fun _ => and_congr_right fun _ =>
      forall_congr' fun k => forall_congr' fun m => ?_
    split <;> simp [*]
  unfold State.openTest
  refine ⟨fun h => ?_, fun h => ?_⟩
  · have grants : u.granting = true := granting ▸ h.2.1
    rw [if_pos (opens.2 h), trigger_eq]
    refine ⟨?_, by rw [← wkp]; rfl⟩
    show (_ || u.granting) = true
    rw [grants, Bool.or_true]
  · rw [if_neg fun h' => h (opens.1 h'), wkp]

theorem WalkTested.finish {opens : Prop} {s t : State} (h : WalkTested opens s t) (old : State) :
    WalkTested opens s (State.finish old t) := by
  obtain ⟨-, -, -, -, -, wkp, -, -, -, -, due, -⟩ := finish_eventEnd old t
  exact ⟨fun ho => ⟨due (h.1 ho).1, wkp.trans (h.1 ho).2⟩, fun ho => wkp.trans (h.2 ho)⟩

end Sys2Proof.Machine

/-! ## SET WALKWAY, CONFIRM CLEAR for the crossing, and the port -/

namespace Sys2Proof.Machine

/-- What CONFIRM CLEAR for the crossing does (R65, R145, R172). -/
theorem confirmCrossing_eq (s : State) : s.confirmCrossing =
    if s.part = .recovering then (s.setUnmatched []).resolveCrossing else (s.setUnmatched []).openTest := by
  unfold State.confirmCrossing
  have part : (s.setUnmatched []).openTest.part = s.part := by
    rw [State.part, (openTest_keeps _).1]
    rfl
  dsimp only
  rw [part]
  by_cases recovering : s.part = .recovering
  · have idle : (s.setUnmatched []).granting = false := by
      show (s.part == .running && _) = false
      rw [recovering]
      rfl
    rw [if_pos (by simp [recovering]), if_pos recovering, openTest_of_not_granting idle]
  · rw [if_neg (by simp [recovering]), if_neg recovering]

theorem settle_ok (code : Byte) (s : State) : Verdict.settle code (.ok s) = s.answered (.ok code) := rfl

/-- Settles O54. -/
theorem setWalkwayAndConfirmCrossing : Obligations.SetWalkwayAndConfirmCrossing := by
  intro s released working
  refine ⟨fun p w => ⟨fun low high short => ?_, fun outside => ?_⟩, ?_⟩
  · have does : Does (.setWalkway p w) s _ := does_act released working rfl
    rw [State.stageWalkway, if_pos ⟨low, high, short⟩] at does
    exact does
  · have does : Does (.setWalkway p w) s _ := does_act released working rfl
    rw [State.stageWalkway, if_neg (by omega)] at does
    exact does
  have does : Does .confirmClearCrossing s _ :=
    does_act (owner := fun s => .ok s.confirmCrossing) released working rfl
  rw [settle_ok] at does
  rw [confirmCrossing_eq] at does
  by_cases recovering : s.part = .recovering
  · rw [if_pos recovering] at does
    obtain ⟨scu, aqu, closures, xu, nbrs, mtp⟩ := resolveCrossing_resolved (s.setUnmatched [])
    have segs : (s.setUnmatched []).resolveCrossing.segs = s.segs := by
      have eq : (s.setUnmatched []).resolveCrossing = (s.setUnmatched []).resolved.trigger.startInterval := rfl
      rw [eq, (startInterval_keeps _).2.2.2.2.2.1, (trigger_keeps _).2.2.2.2.1]
      rfl
    have wkp := resolveCrossing_wkp (s.setUnmatched [])
    have due := resolveCrossing_due (s := s.setUnmatched [])
    generalize (s.setUnmatched []).resolveCrossing = u at *
    obtain ⟨scu', aqu', closures', xu', nbrs', wkp', mtp', -, -⟩ := finish_keeps s (u.answered (.ok 0x14))
    refine ⟨_, does, ?_, ?_, ?_, fun i => ?_, fun _ => ⟨?_, ?_, ?_, ?_⟩, fun h => absurd recovering h, fun _ => ?_, ?_, ?_, ?_⟩
    · rw [xu']
      show u.xu.unmatched = _
      rw [xu]
      rfl
    · rw [xu']
      show u.xu.moves = _
      rw [xu]
      rfl
    · rw [mtp']
      show (u.answered _).mtp = _
      unfold State.answered
      rw [mtp]
      rfl
    · rw [(finish_counts s _ i).1]
      show (u.segs.get i).e = _
      rw [segs]
      rfl
    · rw [State.part, scu']
      show u.scu.part = _
      rw [scu]
      rfl
    · intro k
      have cell : (State.finish s (u.answered (.ok 0x14))).cell k = Cell.resolve (s.cell k) := by
        rw [State.cell, xu']
        show u.xu.cells.get k = _
        rw [xu]
        exact Quad.get_map _ _ k
      rw [cell]
      cases s.cell k <;> simp [Cell.resolve]
    · intro k known
      rw [State.cell, xu']
      show u.xu.cells.get k = _
      rw [xu]
      refine (Quad.get_map _ _ k).trans ?_
      change Cell.resolve (s.cell k) = s.cell k
      cases h : s.cell k <;> simp_all [Cell.resolve]
    · intro unheld
      exact (finish_eventEnd s (u.answered (.ok 0x14))).2.2.2.2.2.2.2.2.2.2.1 (due unheld)
    · rw [wkp']
      show u.wkp = _
      rw [wkp]
      exact if_congr and_comm rfl rfl
    · rw [aqu']
      exact aqu.trans rfl
    · rw [closures']
      exact closures.trans rfl
    · rw [nbrs']
      exact nbrs.trans rfl
  · rw [if_neg recovering] at does
    have tested : WalkTested (s.walkOpens [] none) s (s.setUnmatched []).openTest :=
      walkTested_openTest rfl rfl rfl rfl fun k => by rw [if_neg (by simp)]; rfl
    obtain ⟨scu, aqu, closures, xu, segs, nbrs, -, -, mtp, -⟩ := openTest_keeps (s.setUnmatched [])
    generalize (s.setUnmatched []).openTest = u at *
    obtain ⟨scu', aqu', closures', xu', nbrs', wkp', mtp', -, -⟩ := finish_keeps s (u.answered (.ok 0x14))
    have answered : WalkTested (s.walkOpens [] none) s (u.answered (.ok 0x14)) := tested
    refine ⟨_, does, ?_, ?_, ?_, fun i => ?_, fun h => absurd h recovering, fun _ => ⟨?_, ?_, answered.finish s⟩,
      fun h => absurd h recovering, aqu'.trans aqu, closures'.trans closures, nbrs'.trans nbrs⟩
    · rw [xu']
      show u.xu.unmatched = _
      rw [xu]
      rfl
    · rw [xu']
      show u.xu.moves = _
      rw [xu]
      rfl
    · rw [mtp']
      show (u.answered _).mtp = _
      unfold State.answered
      rw [mtp]
      rfl
    · rw [(finish_counts s _ i).1]
      show (u.segs.get i).e = _
      rw [segs]
      rfl
    · rw [State.part, scu']
      show u.scu.part = _
      rw [scu]
      rfl
    · rw [xu']
      show u.xu.cells = _
      rw [xu]
      rfl

end Sys2Proof.Machine

/-! ## Event flags and the port's buffer -/

namespace Sys2Proof.Machine

/-- The event kinds in the priority order of R180. -/
def EventKind.order : List EventKind :=
  [.configFault, .clockLoss, .addressClash, .overrun, .unauthorisedEntry, .crossingStall, .countInconsistent,
    .neighbourSilent, .neighbourRestart, .configMismatch, .detectorFault, .phantomExit, .grantLapse, .carrierMute,
    .walkwayBlocked, .lineFault, .capacityMismatch, .rescue]

theorem order_bits : EventKind.order.map EventKind.bit = List.range 18 := by decide

theorem exists_bit {n : Nat} (h : n < 18) : ∃ k : EventKind, k.bit = n := by
  have : n ∈ EventKind.order.map EventKind.bit := order_bits ▸ List.mem_range.2 h
  obtain ⟨k, -, hk⟩ := List.mem_map.1 this
  exact ⟨k, hk⟩

theorem bit_lt (k : EventKind) : k.bit < 18 := by cases k <;> decide

theorem enabledFlags_bit (s : State) (k : EventKind) :
    s.enabledFlags.getLsbD k.bit = (s.flagged k && s.mtp.mask.getLsbD k.bit) := by
  rw [State.enabledFlags, BitVec.getLsbD_and, State.flagged]

theorem attention_iff (s : State) :
    s.attention = true ↔ ∃ k : EventKind, s.flagged k = true ∧ s.mtp.mask.getLsbD k.bit = true := by
  simp only [State.attention, State.firstPending, List.find?_isSome, List.mem_range, ← Bool.and_eq_true, ← enabledFlags_bit]
  constructor
  · rintro ⟨n, hn, enabled⟩
    obtain ⟨k, rfl⟩ := exists_bit hn
    exact ⟨k, enabled⟩
  · rintro ⟨k, enabled⟩
    exact ⟨k.bit, bit_lt k, enabled⟩

theorem firstPending_iff (s : State) (k : EventKind) : s.firstPending = some k.bit ↔
    (s.flagged k = true ∧ s.mtp.mask.getLsbD k.bit = true
      ∧ ∀ k' : EventKind, k'.bit < k.bit → ¬ (s.flagged k' = true ∧ s.mtp.mask.getLsbD k'.bit = true)) := by
  have enabled (k : EventKind) : s.enabledFlags.getLsbD k.bit = true ↔
      s.flagged k = true ∧ s.mtp.mask.getLsbD k.bit = true := by
    rw [enabledFlags_bit, Bool.and_eq_true]
  rw [State.firstPending, List.find?_range_eq_some, enabled, and_assoc]
  refine and_congr_right fun _ => and_congr_right fun _ => ?_
  constructor
  · rintro ⟨-, none'⟩ k' lower h
    simpa [(enabled k').2 h] using none' k'.bit lower
  · refine fun none' => ⟨List.mem_range.2 (bit_lt k), fun n lower => ?_⟩
    obtain ⟨k', rfl⟩ := exists_bit (lower.trans (bit_lt k))
    rw [Bool.not_eq_true', ← Bool.not_eq_true]
    exact fun h => none' k' lower ((enabled k').1 h)

/-- Settles O51. -/
theorem flagsMaskAndAttention : Obligations.FlagsMaskAndAttention := by
  refine ⟨order_bits, fun s set released => ⟨fun inside => 
      ⟨⟨State.answer (.ok 0x03) (s.modMtp fun p => { p with flags := p.flags &&& ~~~(set.setWidth 18) }),
          ?_, fun k => ?_, rfl, rfl, rfl⟩,
        State.answer (.ok 0x04) (s.modMtp fun p => { p with mask := set.setWidth 18 }), ?_, fun k => ?_, rfl, rfl, rfl⟩,
    fun outside => ⟨?_, ?_⟩⟩, fun s => ⟨attention_iff s, firstPending_iff s⟩⟩
  · show Host.Outcome.next (s.plainEvent _) = _
    rw [plainEvent_of_released released, if_pos (by simpa [eventSetInRange] using inside)]
  · show (s.mtp.flags &&& ~~~(set.setWidth 18)).getLsbD k.bit = _
    simp [State.flagged, bit_lt k]
  · show Host.Outcome.next (s.plainEvent _) = _
    rw [plainEvent_of_released released, if_pos (by simpa [eventSetInRange] using inside)]
  · show (set.setWidth 18).getLsbD k.bit = _
    simp [bit_lt k]
  all_goals
    show Host.Outcome.next (s.plainEvent _) = _
    rw [plainEvent_of_released released, if_neg (by simpa [eventSetInRange] using outside)]
    rfl

/-! ### The buffer and the port's lines -/

theorem portBits_eq (b : Byte) : portBits b = (List.range 8).map b.getMsbD := by
  revert b
  decide +kernel

theorem portByte_bits (b : Byte) : portByte ((List.range 8).map b.getMsbD) = b := by
  revert b
  decide +kernel

/-- Bit `k` of a list of bytes, each from its most significant bit. -/
theorem getD_flatMap_portBits (l : List Byte) (k : Nat) :
    (l.flatMap portBits).getD k false = (l.getD (k / 8) 0).getMsbD (k % 8) := by
  induction l generalizing k with
  | nil => simp
  | cons b l ih =>
    have length : (portBits b).length = 8 := by simp [portBits_eq]
    rw [List.flatMap_cons]
    by_cases here : k < 8
    · rw [List.getD_append _ _ _ _ (by omega), portBits_eq, Nat.div_eq_of_lt here, Nat.mod_eq_of_lt here]
      simp [List.getD_eq_getElem?_getD, here]
    · rw [List.getD_append_right _ _ _ _ (by omega), length, ih, show k / 8 = (k - 8) / 8 + 1 by omega,
        show (k - 8) % 8 = k % 8 by omega, List.getD_cons_succ]

theorem portBytes_byte (n : Nat) (b : Byte) (rest : List Bool) :
    portBytes (n + 1) ((List.range 8).map b.getMsbD ++ rest) = b :: portBytes n rest := by
  have length : ((List.range 8).map b.getMsbD).length = 8 := by simp
  rw [portBytes, if_neg (by rw [List.length_append]; omega), List.take_left' length, List.drop_left' length, portByte_bits]

/-- Settles O50. -/
theorem responseBuffer : Obligations.ResponseBuffer := by
  refine ⟨fun s released => ⟨fun bits => ?_, fun none' => ?_, fun r rest carried => ?_, fun code _ => ?_, fun r busy => ?_,
    fun empty => ?_, fun r busy => ?_, fun r ready => ?_⟩, fun code reason content => ?_,
    fun r k => getD_flatMap_portBits _ _, portBytes_byte, fun s => ⟨?_, fun released => ?_, fun bit idle => ?_,
    fun x begun => ⟨fun released => ?_, fun bit => ?_, ?_⟩⟩⟩
  · refine ⟨_, congrArg Host.Outcome.next (plainEvent_of_released released _), fun odd => if_neg odd, fun kept => ?_,
      fun r whole ready => ?_⟩
    · cases h : s.mtp.buffer with
      | ready r => exact absurd h (kept r)
      | empty => exact ite_self _
      | busy r => exact ite_self _
    · dsimp only
      rw [if_pos whole, ready]
      rfl
  · rw [Mtp.stream, none', List.headD_nil]
  · rw [Mtp.stream, carried, List.headD_cons]
  · exact congrArg Host.Outcome.next (plainEvent_of_released released _)
  · refine (congrArg Host.Outcome.next (plainEvent_of_released released _)).trans ?_
    simp only [State.modMtp, busy]
  · rw [empty]; rfl
  · rw [busy]; rfl
  · rw [ready]; rfl
  · intro low
    refine ⟨rfl, rfl, rfl, ?_, rfl⟩
    cases reason <;> rfl
  · rintro (held | idle)
    · rw [State.sdo, if_pos held]
    · rw [State.sdo, idle, Option.map_none, ite_self]
  · rw [State.selectPort, if_neg (by simp [released])]
    rfl
  · rw [State.clockPort, State.deselectPort, idle]
    exact ⟨rfl, rfl⟩
  · rw [State.sdo, if_neg (by simp [released]), begun]
    rfl
  · rw [State.clockPort, begun]
    rfl
  · rw [State.deselectPort, begun]
    rfl

end Sys2Proof.Machine

/-! ## The judgement of a transaction -/

namespace Sys2Proof.Machine

open Layout

theorem withCrc16_length (l : List Byte) : (withCrc16 l).length = l.length + 2 := by
  simp [withCrc16, two]

theorem crc16Ok_iff {l : List Byte} : crc16Ok l = true ↔ 2 ≤ l.length ∧ l = withCrc16 (l.take (l.length - 2)) := by
  simp [crc16Ok]

theorem crc16Ok_withCrc16 (l : List Byte) : crc16Ok (withCrc16 l) = true := by
  rw [crc16Ok_iff, withCrc16_length]
  refine ⟨by omega, ?_⟩
  rw [Nat.add_sub_cancel, show (withCrc16 l).take l.length = l from List.take_left' rfl]

/-- The bytes of a transaction on SDI that carries a command: its code, its arguments, their CRC-16 and the fill (R187). -/
def commandFrame (code : Byte) (a : List Byte) (fill : Nat) : List Byte := withCrc16 (code :: a) ++ List.replicate fill 0

theorem checkCommand_commandFrame {code : Byte} {a : List Byte} (fill : Nat)
    (known : argumentLength code.toNat = some a.length) : checkCommand (commandFrame code a fill) = portCommand code.toNat a := by
  have length : (withCrc16 (code :: a)).length = a.length + 3 := by rw [withCrc16_length, List.length_cons]
  have first : byteAt (commandFrame code a fill) 0 = code.toNat := rfl
  unfold checkCommand
  rw [first, known]
  dsimp only
  have frame : (commandFrame code a fill).take (a.length + 3) = withCrc16 (code :: a) := List.take_left' length
  have rest : (commandFrame code a fill).drop (a.length + 3) = List.replicate fill 0 := List.drop_left' length
  rw [frame, rest, if_pos (by simp [length, crc16Ok_withCrc16])]
  have arguments : ((withCrc16 (code :: a)).drop 1).take a.length = a := List.take_left' rfl
  rw [arguments]

theorem commandFrame_of_checkCommand {b : Byte} {rest : List Byte} {c : Instr} (h : checkCommand (b :: rest) = some c) :
    ∃ a fill, argumentLength b.toNat = some a.length ∧ b :: rest = commandFrame b a fill := by
  unfold checkCommand at h
  rw [show byteAt (b :: rest) 0 = b.toNat from rfl] at h
  cases known : argumentLength b.toNat with
  | none => simp [known] at h
  | some n =>
    rw [known] at h
    dsimp only at h
    split at h
    · next whole =>
      simp only [Bool.and_eq_true, decide_eq_true_eq, List.all_eq_true, beq_iff_eq, crc16Ok_iff] at whole
      obtain ⟨⟨length, -, crc⟩, fill⟩ := whole
      have short : n + 3 ≤ (b :: rest).length := by
        rw [List.length_take] at length
        omega
      rw [length, List.take_take, min_eq_left (by omega), show n + 3 - 2 = n + 1 by omega,
        show (b :: rest).take (n + 1) = b :: rest.take n from rfl] at crc
      refine ⟨rest.take n, ((b :: rest).drop (n + 3)).length, ?_, ?_⟩
      · rw [List.length_take, min_eq_left]
        rw [List.length_cons] at short
        omega
      · rw [commandFrame, ← crc, ← List.eq_replicate_of_mem fill, List.take_append_drop]
    · exact absurd h nofun

/-- The codes of the commands with the numbers of their argument bytes (R187). -/
def commandLengths : List (Byte × Nat) :=
  [(0x01, 0), (0x02, 0), (0x03, 3), (0x04, 3), (0x05, 1), (0x06, 0), (0x07, 1), (0x08, 1), (0x09, 0), (0x10, 1), (0x11, 1),
    (0x12, 0), (0x13, 0), (0x14, 1), (0x15, 2), (0x16, 3), (0x20, 184), (0x30, 0)]

theorem mem_commandLengths (b : Byte) : ∀ n ∈ argumentLength b.toNat, (b, n) ∈ commandLengths := by
  revert b
  decide +kernel

theorem transactionCommand_of_whole {b : Byte} {rest : List Byte} {bits : Nat} (code : b ≠ 0) (whole : bits % 8 = 0) :
    transactionCommand bits (b :: rest) = (checkCommand (b :: rest)).getD (.badCommandFrame b) :=
  if_neg fun h => h.elim (absurd whole) code

theorem transactionCommand_commandFrame {code : Byte} {a : List Byte} {bits : Nat} {c : Instr} (fill : Nat) (some' : code ≠ 0)
    (whole : bits % 8 = 0) (known : argumentLength code.toNat = some a.length) (command : portCommand code.toNat a = some c) :
    transactionCommand bits (commandFrame code a fill) = c := by
  have check := checkCommand_commandFrame fill known
  rw [show commandFrame code a fill = code :: (a ++ two (crc16 (code :: a)).toNat ++ List.replicate fill 0) from rfl] at check ⊢
  rw [transactionCommand_of_whole some' whole, check, command]
  rfl

theorem not_acting {s : State} (h : s.part = .loading ∨ s.part = .unconfigured ∨ s.part = .settling) :
    s.part.acting = false := by
  rcases h with h | h | h <;> rw [h] <;> rfl

/-- An acting command outside the part states that accept it (R178). -/
theorem event_act_refused {s : State} (released : s.scu.rstHeld = false)
    (h : s.part = .loading ∨ s.part = .unconfigured ∨ s.part = .settling) (code : Byte) (owner : State → Verdict) :
    s.event (State.act code owner) = s.answered (.refused code .wrongState) := by
  have refused : State.act code owner s = s.answered (.refused code .wrongState) := by
    unfold State.act
    rw [not_acting h]
    rfl
  have before : s.part.working = false := not_acting h
  rw [event_of_released released, refused]
  refine finish_of_starting before ?_
  show s.part.reporting = false
  rcases h with h | h | h <;> rw [h] <;> rfl

/-- Settles O52. -/
theorem acceptanceByPartState : Obligations.AcceptanceByPartState := by
  refine ⟨?_, fun s released => ⟨fun c acting early => ?_, fun image length => ⟨fun unconfigured idle => ?_, fun elsewhere => ?_⟩⟩⟩
  · intro two' set table frame
    refine ⟨fun bits sdi h => ?_, fun row hrow a fill bits length whole => ?_, fun b rest bits some' whole none' => ?_⟩
    · cases sdi with
      | nil => rfl
      | cons b rest =>
        refine if_pos ?_
        simpa using h
    · simp only [table, List.mem_cons, List.not_mem_nil, or_false] at hrow
      rcases hrow with rfl | rfl | rfl | rfl | rfl | rfl | rfl | rfl | rfl | rfl | rfl | rfl | rfl | rfl | rfl | rfl | rfl | rfl <;>
        exact transactionCommand_commandFrame fill (by decide) whole (congrArg some length.symm) rfl
    · rw [transactionCommand_of_whole some' whole]
      cases check : checkCommand (b :: rest) with
      | none => rfl
      | some c =>
        obtain ⟨a, fill, known, frame'⟩ := commandFrame_of_checkCommand check
        have lengths : table.map (fun row => (row.1, row.2.1)) = commandLengths := rfl
        obtain ⟨row, hrow, hcode⟩ := List.mem_map.1 (lengths ▸ mem_commandLengths b a.length known)
        obtain ⟨rfl, hlength⟩ := Prod.mk.inj hcode
        exact absurd frame' (none' row hrow a fill hlength.symm)
  · have refused := event_act_refused released early
    cases c
    case closeArm => exact congrArg Host.Outcome.next (refused _ _)
    case openArm => exact congrArg Host.Outcome.next (refused _ _)
    case stop => exact congrArg Host.Outcome.next (refused _ _)
    case release => exact congrArg Host.Outcome.next (refused _ _)
    case confirmClearCrossing => exact congrArg Host.Outcome.next (refused _ _)
    case confirmClearArm => exact congrArg Host.Outcome.next (refused _ _)
    case purgeCarrier => exact congrArg Host.Outcome.next (refused _ _)
    case setWalkway => exact congrArg Host.Outcome.next (refused _ _)
    all_goals exact absurd acting nofun
  · show Host.Outcome.next (s.plainEvent _) = _
    rw [plainEvent_of_released released, State.beginWrite, if_neg (by simp [length, Image.size]),
      if_pos (by simp [unconfigured, idle])]
    rfl
  · show Host.Outcome.next (s.plainEvent _) = _
    rw [plainEvent_of_released released, State.beginWrite, if_neg (by simp [length, Image.size]), if_neg]
    · rfl
    · simpa [Option.isNone_iff_eq_none, imp_iff_not_or] using elsewhere

end Sys2Proof.Machine

/-! ## What the reads answer -/

namespace Sys2Proof.Machine

open Layout

theorem read_does {s : State} (released : s.scu.rstHeld = false) (f : State → State) :
    Host.Outcome.next (s.plainEvent f) = (.next (f s) : Host.Outcome State Fault Refusal) :=
  congrArg Host.Outcome.next (plainEvent_of_released released f)

theorem readArm_eq {code b : Byte} {i : Arm} {content : Arm → State → List Byte} {s : State} (h : b.toNat = i.val) :
    State.readArm code b content s = s.answered (.data code (content i s)) := by
  unfold State.readArm
  rw [armOf_eq h]
  rfl

theorem readArm_refused {code b : Byte} {content : Arm → State → List Byte} {s : State} (h : 4 ≤ b.toNat) :
    State.readArm code b content s = s.answered (.refused code .badArgument) := by
  unfold State.readArm
  rw [armOf_of_le h]
  rfl

/-! ### Codes -/

theorem partCode_eq (p : PartState) :
    partCode p = [PartState.loading, .unconfigured, .settling, .listening, .recovering, .running, .faulted].idxOf p := by
  cases p <;> rfl

theorem causeCode_eq (c : RestartCause) : causeCode c = [RestartCause.powerOn, .resetPin, .command].idxOf c := by
  cases c <;> rfl

theorem loadByte_eq (l : LoadOutcome) : byte (loadCode l) =
    if l = .none then 0xFF else byte ([LoadOutcome.none, .loaded, .refused, .bypassed].idxOf l) := by
  cases l <;> rfl

theorem recordBytes_eq (c : Carrier) : recordBytes c = two c.id.toNat
    ++ [byte c.arrival, byte c.cls, flag c.priority, byte c.exit]
    ++ two c.length ++ two c.distance ++ two c.speed ++ two c.silence
    ++ [byte ([CarrierState.waiting, .granted, .lapsed, .mute].idxOf c.state), flag c.silent, byte c.skip, flag c.overdue] := by
  rw [recordBytes, show carrierStateCode c.state = [CarrierState.waiting, .granted, .lapsed, .mute].idxOf c.state by
    cases c.state <;> rfl]
  rfl

theorem switchBytes_eq (j : Jar) : switchBytes j =
    [byte ([Layer.priority, .normal].idxOf j.s1), byte ([ArmPair.arms01, .arms23].idxOf j.s2),
      if j.s3 = .lower then 0 else 1, if j.s4 = .lower then 2 else 3] := by
  rw [switchBytes]
  cases j.s1 <;> cases j.s2 <;> cases j.s3 <;> cases j.s4 <;> rfl

theorem unmatchedBytes_eq (u : Unmatched) : unmatchedBytes u = two u.id.toNat
    ++ [byte ((u.arrival.map Fin.val).getD 0xFF), byte ((u.exit.map Fin.val).getD 0xFF),
      byte ([Source.entry, .box].idxOf u.source)] := by
  rw [unmatchedBytes]
  cases u.source <;> rfl

theorem walkwayBytes_eq (w : Wkp) : walkwayBytes w =
    [byte ([WalkState.closed, .closing, .opened].idxOf w.state), flag w.request] ++ two w.stagedP ++ [byte w.stagedW]
      ++ two w.latchedP ++ [byte w.latchedW, timerByte w.interval, timerByte w.clearance, timerByte w.opening] := by
  rw [walkwayBytes]
  cases w.state <;> rfl

theorem conditionCode_eq (c : Condition) : conditionCode c = [Condition.active, .isolated, .unsure].idxOf c := by
  cases c <;> rfl

theorem directionCode_eq (d : Direction) :
    directionCode d = [Direction.free, .outbound, .inbound, .draining, .closing].idxOf d := by
  cases d <;> rfl

theorem flatMap_listed {α : Type} (f : α → List Byte) (l : List α) : listed (l.map f) = byte l.length :: l.flatMap f := by
  rw [listed, List.length_map, List.flatMap_def]

/-! ### Tables -/

theorem crossingData_eq (s : State) :
    let set (l : List Arm) : Byte := byte (bits (Arm.list.map fun k => l.contains k))
    let cell (k : Arm) : List Byte := match s.cell k with
      | .free => [0, 0xFF, 0xFF, 0xFF]
      | .held h => [1, byte h, 0xFF, 0xFF]
      | .reserved c => [2, 0xFF] ++ two c.toNat
      | .emergency => [3, 0xFF, 0xFF, 0xFF]
      | .unknown => [4, 0xFF, 0xFF, 0xFF]
    let entry (e : Entry) : List Byte := two e.id.toNat ++ match e.status with
      | .granted start deferred => [0, byte e.cls, flag deferred, timerByte start]
      | .crossing clear stalled => [1, byte e.cls, flag stalled, timerByte clear]
    let move (i : Arm) (m : Movement) : List Byte :=
      [byte i, byte m.exit, set (cellSet i m.exit), byte m.carriers.length]
      ++ m.carriers.flatMap entry ++ [byte m.followOns, flag m.rescued]
    let unmatched (u : Unmatched) : List Byte := two u.id.toNat
      ++ [byte ((u.arrival.map Fin.val).getD 0xFF), byte ((u.exit.map Fin.val).getD 0xFF),
        byte ([Source.entry, .box].idxOf u.source)]
    let filter (x : Filter) : List Byte := [flag x.level, flag x.stuck]
    let moves := Arm.list.filterMap fun i => (s.move i).map (move i)
    s.crossingData = Arm.list.flatMap cell
      ++ byte moves.length :: moves.flatten
      ++ byte s.xu.unmatched.length :: s.xu.unmatched.flatMap unmatched
      ++ Arm.list.flatMap (fun i => filter (s.xu.ent.get i)) ++ Arm.list.flatMap (fun j => filter (s.xu.ext.get j))
      ++ filter s.xu.box
      ++ Arm.list.map (fun i => byte (bits [(s.closures.get i).operator, (s.closures.get i).detector]))
      ++ [byte ([Layer.priority, .normal].idxOf s.jar.s1), byte ([ArmPair.arms01, .arms23].idxOf s.jar.s2),
        if s.jar.s3 = .lower then 0 else 1, if s.jar.s4 = .lower then 2 else 3]
      ++ (match s.jar.overdue with
        | none => [0xFF, 0xFF, 0xFF, 0xFF, 0xFF]
        | some o => two o.id.toNat ++ [byte o.arrival, byte o.exit, set (cellSet o.arrival o.exit)])
      ++ [byte ([WalkState.closed, .closing, .opened].idxOf s.wkp.state), flag s.wkp.request]
      ++ two s.wkp.stagedP ++ [byte s.wkp.stagedW] ++ two s.wkp.latchedP ++ [byte s.wkp.latchedW]
      ++ [timerByte s.wkp.interval, timerByte s.wkp.clearance, timerByte s.wkp.opening] := by
  intro set cell entry move unmatched filter moves
  have cells : s.xu.cells.toList.flatMap cellBytes = Arm.list.flatMap cell := rfl
  have movement (i : Arm) (m : Movement) : movementBytes i m = move i m := by
    rw [movementBytes, flatMap_listed]
    rfl
  have records : s.moveBytes = moves := by
    unfold State.moveBytes
    simp only [funext (movement _)]
    rfl
  have unmatched' : unmatchedBytes = unmatched := funext unmatchedBytes_eq
  rw [State.crossingData, cells, records, flatMap_listed, unmatched', switchBytes_eq, walkwayBytes_eq]
  cases s.jar.overdue <;> simp only [List.append_assoc] <;> rfl

theorem segmentData_eq {s : State} {i : Arm} (present : s.present i = true) : let g := s.seg i
    let condition (c : Condition) : Nat := [Condition.active, .isolated, .unsure].idxOf c
    let direction (d : Direction) : Nat := [Direction.free, .outbound, .inbound, .draining, .closing].idxOf d
    s.segmentData i =
      [if s.role i = .lock then 1 else 2,
        g.e, g.x, byte g.r, byte g.occ, flag g.unsure, flag g.isolated, g.eN, g.xN,
        byte g.rN, byte g.demN, byte g.occN, byte (g.capN.getD 0xFF),
        byte ((g.condN.map condition).getD 0xFF), byte ((g.dirN.map direction).getD 0xFF), g.limN, g.limEpN,
        byte (direction (if s.part.working = true then g.dir else .free)), if g.last = .outbound then 1 else 2,
        g.limit, g.limitEpoch, timerByte g.hold, timerByte g.quiet, g.heldLimit, g.heldEpoch, flag (s.heldValid i),
        byte (condition g.condition), byte (s.effCapacity i)] := by
  intro g condition direction
  have conditions : conditionCode = condition := funext conditionCode_eq
  have directions : directionCode = direction := funext directionCode_eq
  rw [State.segmentData, if_pos present]
  simp only [conditions, directions, orNone, State.shownDirection]
  congr 1
  · cases s.role i <;> rfl
  · cases (s.seg i).last <;> simp [g]

theorem neighbourData_eq {s : State} {i : Arm} (present : s.present i = true) (linked : (s.arm i).neighbour ≠ 0) : let n := s.nbr i
    s.neighbourData i =
      [byte (s.arm i).neighbour, byte ([NeighbourState.awaited, .live, .silent].idxOf n.state),
        n.epoch.getD 0, byte ([BaseState.none, .current, .newEpoch].idxOf n.base)]
      ++ two n.silence
      ++ [flag n.late,
        if n.mismatch = .none then 0xFF else byte ([Mismatch.none, .noEntry, .kind].idxOf n.mismatch),
        flag n.capFlag]
      ++ (match n.node with
        | none => [0xFF, 0xFF]
        | some p => [byte (1 + [NodeState.recovering, .running, .faulted].idxOf p.1), flag p.2])
      ++ (match n.entry with
        | none => List.replicate 12 0xFF
        | some e => [e.address, e.codes, e.dir, e.e, e.x, e.r, e.demand, e.occ, e.capacity, e.lim, e.limEpoch, e.ignored]) := by
  intro n
  rw [State.neighbourData, if_pos present, if_neg linked]
  have state : neighbourStateCode n.state = [NeighbourState.awaited, .live, .silent].idxOf n.state := by
    cases n.state <;> rfl
  have base : baseCode n.base = [BaseState.none, .current, .newEpoch].idxOf n.base := by
    cases n.base <;> rfl
  have mismatch : byte (mismatchCode n.mismatch) =
      if n.mismatch = .none then 0xFF else byte ([Mismatch.none, .noEntry, .kind].idxOf n.mismatch) := by
    cases n.mismatch <;> rfl
  have node : [orNone (n.node.map fun p => reportedStateCode p.1), orNone (n.node.map fun p => if p.2 then 1 else 0)] =
      match n.node with
      | none => [0xFF, 0xFF]
      | some p => [byte (1 + [NodeState.recovering, .running, .faulted].idxOf p.1), flag p.2] := by
    rcases n.node with _ | ⟨p, hold⟩
    · rfl
    · cases p <;> cases hold <;> rfl
  have copy : copyBytes n.entry = match n.entry with
      | none => List.replicate 12 0xFF
      | some e => [e.address, e.codes, e.dir, e.e, e.x, e.r, e.demand, e.occ, e.capacity, e.lim, e.limEpoch, e.ignored] := by
    cases n.entry <;> rfl
  dsimp only
  rw [← node, ← copy, ← state, ← base, ← mismatch]
  simp [n]

/-- Settles O49. -/
theorem readsAnswerAndChangeNothing : Obligations.ReadsAnswerAndChangeNothing := by
  refine ⟨fun s released => ⟨read_does released _, read_does released _, read_does released _, read_does released _,
      fun i b hb => ⟨?_, ?_, ?_, fun absent => ?_⟩, fun b hb => ⟨?_, ?_, ?_⟩⟩, ⟨rfl, fun _ => rfl, rfl⟩,
    fun s => ⟨?_, rfl, fun i present => ?_⟩, crossingData_eq, fun s i present => ?_⟩
  · exact (read_does released _).trans (congrArg Host.Outcome.next (readArm_eq hb))
  · exact (read_does released _).trans (congrArg Host.Outcome.next (readArm_eq hb))
  · exact (read_does released _).trans (congrArg Host.Outcome.next (readArm_eq hb))
  · simp [State.queueData, State.segmentData, State.neighbourData, absent, absentMarker]
  · exact (read_does released _).trans (congrArg Host.Outcome.next (readArm_refused hb))
  · exact (read_does released _).trans (congrArg Host.Outcome.next (readArm_refused hb))
  · exact (read_does released _).trans (congrArg Host.Outcome.next (readArm_refused hb))
  · rw [State.statusData, partCode_eq, causeCode_eq, loadByte_eq]
    rfl
  · rw [State.queueData, if_pos present, flatMap_listed,
      show recordBytes = _ from funext recordBytes_eq]
    rfl
  · intro g n condition direction
    refine ⟨segmentData_eq present, fun spur => ?_, fun linked => neighbourData_eq present linked⟩
    rw [State.neighbourData, if_pos present, if_pos spur]

end Sys2Proof.Machine

/-! ## The receiver of the floor line -/

namespace Sys2Proof.Machine

open Layout

theorem lineIdle_iff (s : State) : s.lineIdle = true ↔ 12 ≤ s.fli.rx.rest := by
  simp [State.lineIdle]

theorem lineBit_working {s : State} (working : s.part.working = true) (level : Bool) : s.lineBit level =
    { s with
      fli := { s.fli with rx := { s.fli.rx.readBit level with rows := s.fli.rx.rows + (s.fli.rx.bitRows level).length } }
      pending := s.pending ++ s.fli.rx.bitRows level } :=
  if_pos working

/-- A bit completes a character or none, and then the row of the line's rest that it reaches. -/
theorem bitRows_eq (x : Receiver) (level : Bool) : ∃ characters : List Instr,
    .lineIdle ∉ characters ∧ .receiveGap ∉ characters
    ∧ x.bitRows level = characters ++ (if (x.readBit level).rest = 12 then [.lineIdle] else [])
        ++ (if (x.readBit level).pause = 31 then [.receiveGap] else []) := by
  unfold Receiver.bitRows
  cases x.bits with
  | none => exact ⟨[], List.not_mem_nil, List.not_mem_nil, rfl⟩
  | some l =>
    dsimp only
    split
    · exact ⟨[], List.not_mem_nil, List.not_mem_nil, rfl⟩
    · exact ⟨_, by simp, by simp, rfl⟩

theorem lineIdle_mem_bitRows (x : Receiver) (level : Bool) : .lineIdle ∈ x.bitRows level ↔ (x.readBit level).rest = 12 := by
  obtain ⟨characters, notIdle, -, rows⟩ := bitRows_eq x level
  rw [rows]
  by_cases rest : (x.readBit level).rest = 12 <;> by_cases pause : (x.readBit level).pause = 31 <;>
    simp [rest, pause, notIdle]

theorem receiveGap_mem_bitRows (x : Receiver) (level : Bool) : .receiveGap ∈ x.bitRows level ↔ (x.readBit level).pause = 31 := by
  obtain ⟨characters, -, notGap, rows⟩ := bitRows_eq x level
  rw [rows]
  by_cases rest : (x.readBit level).rest = 12 <;> by_cases pause : (x.readBit level).pause = 31 <;>
    simp [rest, pause, notGap]

/-! ### The bits of a character -/

/-- The count of rest after some bits (R114). -/
def restAfter (rest : Nat) (l : List Bool) : Nat := l.foldl (fun n level => if level then n + 1 else 0) rest

theorem restAfter_le (rest : Nat) (l : List Bool) : restAfter rest l ≤ rest + l.length := by
  induction l generalizing rest with
  | nil => exact le_rfl
  | cons b l ih =>
    refine (ih _).trans ?_
    rw [List.length_cons]
    cases b
    · show 0 + _ ≤ _
      omega
    · show rest + 1 + _ ≤ _
      omega

theorem restAfter_character (ch : Byte) : restAfter 0 ((List.range 8).map ch.getLsbD ++ [true]) = trailingRest ch := by
  revert ch
  decide +kernel

/-- The receiver in the midst of a character, its start bit read. -/
structure Receiver.Reads (l : List Bool) (x y : Receiver) : Prop where
  bits : y.bits = some (false :: l)
  rest : y.rest = restAfter 0 l
  pause : y.pause = 0

theorem lineBit_start {s : State} (working : s.part.working = true) (between : s.fli.rx.bits = none) :
    (s.lineBit false).pending = s.pending ∧ (s.lineBit false).part = s.part ∧ s.fli.rx.Reads [] (s.lineBit false).fli.rx := by
  rw [lineBit_working working]
  refine ⟨?_, rfl, ?_, rfl, ?_⟩
  · simp [Receiver.bitRows, Receiver.readBit, between]
  · simp [Receiver.readBit, between]
  · simp [Receiver.readBit]

/-- The bits of a character before the last complete no row. -/
theorem lineBits_reads {s : State} {x : Receiver} {m : List Bool} (l : List Bool) (working : s.part.working = true)
    (reads : x.Reads m s.fli.rx) (short : m.length + l.length ≤ 8) :
    let t := l.foldl (fun u level => u.lineBit level) s
    t.pending = s.pending ∧ t.part = s.part ∧ x.Reads (m ++ l) t.fli.rx := by
  induction l generalizing s m with
  | nil => simpa using reads
  | cons b l ih =>
    rw [List.length_cons] at short
    have length : (false :: m).length < 9 := by
      rw [List.length_cons]
      omega
    have low := restAfter_le 0 (m ++ [b])
    have rest : (s.fli.rx.readBit b).rest = restAfter 0 (m ++ [b]) := by
      simp [Receiver.readBit, reads.rest, restAfter]
    have pause : (s.fli.rx.readBit b).pause = 0 := by
      simp [Receiver.readBit, reads.bits]
    have rows : s.fli.rx.bitRows b = [] := by
      rw [List.length_append, List.length_singleton] at low
      rw [Receiver.bitRows, reads.bits, rest, pause, if_neg (by omega), if_neg (by omega)]
      dsimp only
      rw [if_pos length]
      rfl
    have next : s.lineBit b = { s with fli := { s.fli with rx := s.fli.rx.readBit b } } := by
      rw [lineBit_working working, rows, List.append_nil]
      rfl
    have reads' : x.Reads (m ++ [b]) (s.lineBit b).fli.rx := by
      rw [next]
      refine ⟨?_, rest, pause⟩
      simp only [Receiver.readBit, reads.bits]
      rw [if_pos length]
      rfl
    have step := ih (s := s.lineBit b) (m := m ++ [b]) (by rw [next]; exact working) reads'
      (by rw [List.length_append, List.length_singleton]; omega)
    rw [List.append_assoc, next] at step
    rw [List.foldl_cons, next]
    exact step

theorem lineBits_character {s : State} (ch : Byte) (working : s.part.working = true) (between : s.fli.rx.bits = none) :
    let t := (false :: (List.range 8).map ch.getLsbD ++ [true]).foldl (fun u level => u.lineBit level) s
    t.pending = s.pending ++ [.floorCharacterReceived ch true] ∧ t.fli.rx.bits = none ∧ t.fli.rx.pause = 0
      ∧ t.fli.rx.rest = trailingRest ch := by
  intro t
  obtain ⟨pending, part, reads⟩ := lineBit_start working between
  obtain ⟨pending', part', reads'⟩ := lineBits_reads ((List.range 8).map ch.getLsbD) (part ▸ working) reads (by simp)
  have ht : t = State.lineBit true (((List.range 8).map ch.getLsbD).foldl (fun u level => u.lineBit level) (s.lineBit false)) := by
    simp only [t, List.foldl_append, List.foldl_cons, List.foldl_nil]
  rw [ht]
  generalize ((List.range 8).map ch.getLsbD).foldl (fun u level => u.lineBit level) (s.lineBit false) = u at *
  rw [List.nil_append] at reads'
  have rest : (u.fli.rx.readBit true).rest = trailingRest ch := by
    rw [← restAfter_character]
    simp only [Receiver.readBit, reads'.rest, restAfter, List.foldl_append]
    rfl
  have pause : (u.fli.rx.readBit true).pause = 0 := by
    simp [Receiver.readBit, reads'.bits]
  have low : trailingRest ch ≤ 9 := by
    rw [← restAfter_character]
    exact (restAfter_le _ _).trans (by simp)
  have rows : u.fli.rx.bitRows true = [.floorCharacterReceived ch true] := by
    have read := readCharacter_sent ch
    rw [Receiver.bitRows, reads'.bits, rest, pause, if_neg (by omega), if_neg (by omega)]
    dsimp only
    rw [if_neg (by simp), read]
    rfl
  rw [lineBit_working (part'.trans part ▸ working), rows]
  refine ⟨by rw [pending', pending], ?_, pause, rest⟩
  simp [Receiver.readBit, reads'.bits]

/-! ### The rows of the receiver -/

theorem noteRest_eq (rest : Nat) (x : Receiver) :
    x.noteRest rest = { x with rest := if x.rows = 0 then rest else x.rest, rows := x.rows - 1 } := by
  unfold Receiver.noteRest
  by_cases h : x.rows = 0
  · simp [h]
  · simp [h]

theorem exec_receiver {c : Instr} {f : Receiver → Receiver} {s : State} (released : s.scu.rstHeld = false)
    (working : s.part.working = true)
    (h : exec c s = .next (s.plainEvent fun s => if s.part.working then s.modRx f else s)) :
    exec c s = .next { s with fli := { s.fli with rx := f s.fli.rx } } := by
  rw [h, plainEvent_of_released released, if_pos working]
  rfl

/-- What a character does to the receiver (R125). -/
theorem takeChar_does (ch : Byte) (ok : Bool) (rx : Receiver) : let x := rx.takeChar ch ok
    x.good = rx.good
      ∧ x.rest = (if rx.rows = 0 then (if ok = true then trailingRest ch else 0) else rx.rest) ∧ x.rows = rx.rows - 1
      ∧ (rx.state = .hunt → x.state = .hunt ∧ x.buffer = rx.buffer)
      ∧ (rx.state = .tail → x.state = .hunt ∧ x.buffer = [])
      ∧ (rx.state = .ready ∨ rx.state = .frame → ok = false → x.state = .hunt ∧ x.buffer = [])
      ∧ (rx.state = .ready → ok = true → ch = 0x5A ∨ ch = 0x5B → x.state = .frame ∧ x.buffer = [ch])
      ∧ (rx.state = .ready → ok = true → ch ≠ 0x5A → ch ≠ 0x5B → x.state = .hunt ∧ x.buffer = [])
      ∧ (rx.state = .frame → ok = true → unknownFrame (rx.buffer ++ [ch]) = false →
          x.buffer = rx.buffer ++ [ch]
          ∧ x.state = if frameLength (rx.buffer ++ [ch]) = some (rx.buffer.length + 1) then .tail else .frame)
      ∧ (rx.state = .frame → ok = true → unknownFrame (rx.buffer ++ [ch]) = true → x.state = .hunt ∧ x.buffer = []) := by
  have first : unknownFrame [ch] = !(ch == 0x5A || ch == 0x5B) := by
    revert ch
    decide +kernel
  have begins : frameLength [ch] ≠ some 1 := by
    revert ch
    decide +kernel
  unfold Receiver.takeChar
  simp only [noteRest_eq]
  cases rx.state <;> cases ok
  case ready.true =>
    by_cases kind : ch = 0x5A ∨ ch = 0x5B
    · have known : unknownFrame [ch] = false := by rw [first]; rcases kind with rfl | rfl <;> rfl
      have other : ch ≠ 0x5A → ch = 0x5B := fun h => kind.resolve_left h
      simpa [known, begins] using other
    · have unknown : unknownFrame [ch] = true := by
        rw [first]
        simpa using kind
      simpa [unknown] using not_or.1 kind
  case frame.true =>
    cases unknown : unknownFrame (rx.buffer ++ [ch])
    · by_cases whole : frameLength (rx.buffer ++ [ch]) = some (rx.buffer.length + 1) <;> simp [whole]
    · simp
  all_goals simp

/-- Settles O40. -/
theorem receiverTable : Obligations.ReceiverTable := by
  refine ⟨fun s level => ?_, fun s ch working between => lineBits_character ch working between, lineIdle_iff,
    fun ch ok s released working => ?_⟩
  · intro t
    refine ⟨fun idle => if_neg (by simp [idle]), fun working => ?_⟩
    have ht : t = _ := lineBit_working working level
    refine ⟨by rw [ht]; rfl, fun dominant => ?_, by rw [ht]; rfl, by rw [ht]; rfl, by rw [ht]; rfl,
      ⟨_, by rw [ht], by rw [ht], ?_, ?_⟩, by rw [ht], by rw [ht]⟩
    · rw [← Bool.not_eq_true, lineIdle_iff, ht, dominant]
      exact (show ¬ 12 ≤ 0 by decide)
    · rw [ht]
      exact lineIdle_mem_bitRows _ _
    · rw [ht]
      exact receiveGap_mem_bitRows _ _
  · intro rx with_
    refine ⟨⟨_, exec_receiver released working rfl, takeChar_does ch ok rx⟩, ⟨_, exec_receiver released working rfl, ?_⟩,
      ⟨_, exec_receiver released working rfl, ?_⟩⟩
    · unfold Receiver.goIdle
      simp only [noteRest_eq]
      cases rx.state <;> simp +contextual [rx]
    · unfold Receiver.gap
      simp only [noteRest_eq]
      cases state : rx.state <;> simp_all [rx]

end Sys2Proof.Machine

/-! ## The frames that the part builds -/

namespace Sys2Proof.Machine

open Layout

/-! ### Their bytes -/

theorem crc16Bit_eq (c : Half) : crc16Bit c = if c.getMsbD 0 = true then (c <<< 1) ^^^ 0x1021 else c <<< 1 := by
  rw [crc16Bit, BitVec.msb]

theorem two_half (x : Half) : two x.toNat = [x.setWidth 8, (x >>> 8).setWidth 8] := by
  have low : (BitVec.ofNat 8 x.toNat : Byte) = x.setWidth 8 := by
    apply BitVec.eq_of_toNat_eq
    simp
  have high : (BitVec.ofNat 8 (x.toNat / 256) : Byte) = (x >>> 8).setWidth 8 := by
    apply BitVec.eq_of_toNat_eq
    simp [Nat.shiftRight_eq_div_pow]
  rw [two, low, high]

theorem role_of_neighbour {s : State} {i : Arm} (linked : (s.arm i).neighbour ≠ 0) :
    s.role i = if s.cfg.nodeAddress < (s.arm i).neighbour then .lock else .far := if_neg linked

theorem kindCode_eq (k : SegKind) : Image.kindCode k = [SegKind.twoWay, .oneWayUp, .oneWayDown].idxOf k := by
  cases k <;> rfl

theorem reportEntry_eq {s : State} {i : Arm} (linked : (s.arm i).neighbour ≠ 0) :
    let low (n : Nat) : Byte := BitVec.ofNat 8 n
    let g := s.seg i; let lock : Prop := s.cfg.nodeAddress < (s.arm i).neighbour
    let kind : Nat := [SegKind.twoWay, .oneWayUp, .oneWayDown].idxOf (s.arm i).kind
    let condition : Nat := if g.unsure = true then 2 else if g.isolated = true then 1 else 0
    s.reportEntry i = [low (s.arm i).neighbour, low ((if lock then 1 else 2) + 4 * kind + 16 * condition),
      if lock then low ([Direction.free, .outbound, .inbound, .draining, .closing].idxOf g.dir) else 0,
      g.e, g.x, low g.r, low (s.demand i), low g.occ, low (s.arm i).capacity,
      if lock then g.limit else g.heldLimit, if lock then g.limitEpoch else g.heldEpoch, 0] := by
  intro low g lock kind condition
  have condition' : conditionCode (s.seg i).condition = condition := by
    simp only [condition, SegEnd.condition, g]
    repeat' split
    all_goals first | rfl
  rw [State.reportEntry, condition', kindCode_eq, directionCode_eq, role_of_neighbour linked]
  by_cases below : s.cfg.nodeAddress < (s.arm i).neighbour <;> simp [lock, below, low, byte, g, kind, roleCode]

theorem statusByte_eq (s : State) :
    let low (n : Nat) : Byte := BitVec.ofNat 8 n
    let hold : Nat := if s.held = true ∨ s.part = .faulted then 4 else 0
    (s.part = .recovering → s.statusByte = low (1 + hold)) ∧ (s.part = .running → s.statusByte = low (2 + hold))
      ∧ (s.part = .faulted → s.statusByte = low (3 + hold)) := by
  intro low hold
  have hold' : (if s.beacon = true then 4 else 0) = hold := by simp [State.beacon, hold]
  refine ⟨fun part => ?_, fun part => ?_, fun part => ?_⟩ <;> rw [State.statusByte, hold', part] <;> rfl

/-! ### A frame as the receiver takes it -/

/-- A list of bytes that a receiver reads as one frame, no earlier complete and at no place unknown (R125, R126). -/
structure ReadAsFrame (l : List Byte) : Prop where
  some' : l ≠ []
  known : ∀ n, 0 < n → n ≤ l.length → unknownFrame (l.take n) = false
  before : ∀ n, 0 < n → n < l.length → frameLength (l.take n) ≠ some n
  whole : frameLength l = some l.length

theorem takeChar_ready {x : Receiver} (ready : x.state = .ready) (ch : Byte) (ok : Bool) :
    (x.takeChar ch ok).sentWhole = false := by
  unfold Receiver.takeChar
  simp only [noteRest_eq, ready]
  repeat' split
  all_goals rfl

theorem takeChar_frame {x : Receiver} (frame : x.state = .frame) (ch : Byte) (ok : Bool) :
    (x.takeChar ch ok).sentWhole = x.sentWhole := by
  unfold Receiver.takeChar
  simp only [noteRest_eq, frame]
  repeat' split
  all_goals rfl

/-- The receiver in the midst of a frame. -/
structure Receiver.Holds (l : List Byte) (good : List GoodFrame) (x : Receiver) : Prop where
  buffer : x.buffer = l
  state : x.state = if frameLength l = some l.length then .tail else .frame
  sentWhole : x.sentWhole = false
  good : x.good = good

theorem takeChars_holds {front l : List Byte} {good : List GoodFrame} {x : Receiver} (frame : ReadAsFrame (front ++ l))
    (started : front ≠ []) (holds : x.Holds front good) : (l.foldl (fun r ch => Receiver.takeChar ch true r) x).Holds (front ++ l) good := by
  induction l generalizing front x with
  | nil => simpa using holds
  | cons ch l ih =>
    have positive : 0 < front.length := List.length_pos_iff.2 started
    have state : x.state = .frame := by
      have before := frame.before front.length positive (by simp)
      rw [List.take_left' rfl] at before
      rw [holds.state, if_neg before]
    have known : unknownFrame (front ++ [ch]) = false := by
      have known := frame.known (front.length + 1) (Nat.succ_pos _) (by simp)
      rwa [List.append_cons, List.take_left' (by simp)] at known
    obtain ⟨good', -, -, -, -, -, -, -, grows, -⟩ := takeChar_does ch true x
    obtain ⟨buffer, state'⟩ := grows state rfl (holds.buffer ▸ known)
    rw [List.foldl_cons, List.append_cons]
    refine ih (by rwa [← List.append_cons]) (by simp) ⟨by rw [buffer, holds.buffer], ?_, ?_, good'.trans holds.good⟩
    · rw [state', holds.buffer, List.length_append, List.length_singleton]
    · rw [takeChar_frame state, holds.sentWhole]

theorem kind_of_known : ∀ ch : Byte, unknownFrame [ch] = false → ch = 0x5A ∨ ch = 0x5B := by
  decide +kernel

theorem frameLength_start : ∀ ch : Byte, frameLength [ch] ≠ some 1 := by
  decide +kernel

/-- A frame that a receiver in READY hears, and the idle line behind it (R125, R126). -/
theorem hears_frame {l : List Byte} {x : Receiver} (frame : ReadAsFrame l) (ready : x.state = .ready) :
    let y := (l.foldl (fun r ch => Receiver.takeChar ch true r) x).goIdle
    y.state = .ready ∧ y.good = x.good ++ (checkFrame l false).toList := by
  obtain ⟨ch, rest, rfl⟩ := List.exists_cons_of_ne_nil frame.some'
  intro y
  have known : unknownFrame [ch] = false := frame.known 1 Nat.one_pos (by simp)
  have kind := kind_of_known ch known
  have short := frameLength_start ch
  obtain ⟨good, -, -, -, -, -, starts, -⟩ := takeChar_does ch true x
  obtain ⟨state, buffer⟩ := starts ready rfl kind
  have holds := takeChars_holds (front := [ch]) (l := rest) (x := x.takeChar ch true) frame (List.cons_ne_nil _ _)
    ⟨buffer, by rw [state]; exact (if_neg short).symm, takeChar_ready ready ch true, good⟩
  have tail := holds.state
  rw [List.singleton_append, if_pos frame.whole] at tail
  have hy : y = ((rest.foldl (fun r ch => Receiver.takeChar ch true r) (x.takeChar ch true))).goIdle := rfl
  rw [hy, Receiver.goIdle]
  simp only [noteRest_eq, tail, holds.buffer, holds.sentWhole, holds.good, List.singleton_append]
  exact ⟨trivial, trivial⟩

/-! ### Reports and requests -/

theorem readAsFrame_request (a b : Byte) : ReadAsFrame (withCrc16 [requestKind, a, b]) := by
  have length : (withCrc16 [requestKind, a, b]).length = 5 := rfl
  have head (n : Nat) (h : 0 < n) : ((withCrc16 [requestKind, a, b]).take n).head? = some requestKind := by
    obtain ⟨n, rfl⟩ := Nat.exists_eq_succ_of_ne_zero h.ne'
    rfl
  refine ⟨List.cons_ne_nil _ _, fun n h _ => ?_, fun n h lt => ?_, rfl⟩
  · rw [unknownFrame, head n h]
    rfl
  · rw [frameLength, head n h]
    rw [length] at lt
    simp only [if_true, ne_eq, Option.some.injEq]
    omega

/-- A frame with the kind of a report and the count of its entries in place. -/
theorem readAsFrame_report {a b c : Byte} {entries : List Byte} {count : Nat} (few : count ≤ 4)
    (length : entries.length = 12 * count) :
    ReadAsFrame (withCrc16 ([reportKind, a, b, c, byte count] ++ entries)) := by
  have total : (withCrc16 ([reportKind, a, b, c, byte count] ++ entries)).length = 7 + 12 * count := by
    rw [withCrc16_length, List.length_append, length]
    simp only [List.length_cons, List.length_nil]
    omega
  have head (n : Nat) (h : 0 < n) : ((withCrc16 ([reportKind, a, b, c, byte count] ++ entries)).take n).head? = some reportKind := by
    obtain ⟨n, rfl⟩ := Nat.exists_eq_succ_of_ne_zero h.ne'
    rfl
  have counts (n : Nat) (h : 5 ≤ n) : byteAt ((withCrc16 ([reportKind, a, b, c, byte count] ++ entries)).take n) 4 = count := by
    obtain ⟨n, rfl⟩ := Nat.exists_eq_add_of_le' h
    show (byte count).toNat = count
    rw [byte, BitVec.toNat_ofNat]
    exact Nat.mod_eq_of_lt (by omega)
  refine ⟨List.cons_ne_nil _ _, fun n h le => ?_, fun n h lt => ?_, ?_⟩
  · rw [unknownFrame, head n h]
    simp only [show reportKind ≠ requestKind by decide, if_false, if_true, List.length_take, total]
    by_cases five : 5 ≤ n
    · rw [counts n five]
      simp [few]
    · simp [five]
  · rw [frameLength, head n h]
    rw [total] at lt
    simp only [show reportKind ≠ requestKind by decide, if_false, if_true, List.length_take, total]
    by_cases five : 5 ≤ n
    · rw [counts n five, if_pos (by omega)]
      simp only [ne_eq, Option.some.injEq]
      omega
    · rw [if_neg (by omega)]
      exact nofun
  · have all := head (7 + 12 * count) (by omega)
    have count' := counts (7 + 12 * count) (by omega)
    rw [List.take_of_length_le (by omega)] at all count'
    rw [frameLength, all, count', total]
    simp only [show reportKind ≠ requestKind by decide, if_false, if_true, if_pos (show 5 ≤ 7 + 12 * count by omega)]

/-! ### The entries of a report -/

theorem reportEntry_length (s : State) (i : Arm) : (s.reportEntry i).length = 12 := by
  unfold State.reportEntry
  cases s.role i <;> rfl

theorem entryBytes_entryAt {l : List Byte} (length : l.length = 12) : entryBytes (entryAt l 0) = l := by
  obtain ⟨a0, a1, a2, a3, a4, a5, a6, a7, a8, a9, a10, a11, rfl⟩ : ∃ a0 a1 a2 a3 a4 a5 a6 a7 a8 a9 a10 a11 : Byte,
      l = [a0, a1, a2, a3, a4, a5, a6, a7, a8, a9, a10, a11] := by
    match l, length with
    | [a0, a1, a2, a3, a4, a5, a6, a7, a8, a9, a10, a11], _ => exact ⟨_, _, _, _, _, _, _, _, _, _, _, _, rfl⟩
  rfl

theorem entryAt_append {front e rest : List Byte} (length : e.length = 12) :
    entryAt (front ++ (e ++ rest)) front.length = entryAt e 0 := by
  have field (k : Nat) (h : k < 12) : (front ++ (e ++ rest)).getD (front.length + k) 0 = e.getD k 0 := by
    rw [List.getD_append_right _ _ _ _ (by omega), Nat.add_sub_cancel_left, List.getD_append _ _ _ _ (by omega)]
  have first := field 0 (by omega)
  rw [Nat.add_zero] at first
  unfold entryAt
  simp only [first, field 1 (by omega), field 2 (by omega), field 3 (by omega), field 4 (by omega), field 5 (by omega),
    field 6 (by omega), field 7 (by omega), field 8 (by omega), field 9 (by omega), field 10 (by omega),
    field 11 (by omega), Nat.zero_add]

/-- The entries read one behind the other. -/
theorem entries_read {α : Type} {f : α → List Byte} (length : ∀ a, (f a).length = 12) (l : List α) (front rest : List Byte) :
    (List.range l.length).map (fun k => entryAt (front ++ (l.flatMap f ++ rest)) (front.length + 12 * k))
      = l.map fun a => entryAt (f a) 0 := by
  induction l generalizing front with
  | nil => rfl
  | cons a l ih =>
    have later := ih (front ++ f a)
    rw [List.length_append, length] at later
    rw [List.length_cons, List.range_succ_eq_map, List.map_cons, List.map_cons, List.map_map, List.flatMap_cons,
      List.append_assoc, Nat.mul_zero, Nat.add_zero, entryAt_append (length a), ← later]
    congr 1
    refine List.map_congr_left fun k _ => ?_
    rw [Function.comp_apply, List.append_assoc, show front.length + 12 * k.succ = front.length + 12 + 12 * k by omega]

theorem reportArms_length (s : State) : s.reportArms.length ≤ 4 := List.length_filter_le _ _

theorem checkFrame_report (s : State) : checkFrame s.buildReport false = some (.report
    { sender := BitVec.ofNat 8 s.cfg.nodeAddress, epoch := s.scu.epoch, status := s.statusByte,
      entries := s.reportArms.map fun i => entryAt (s.reportEntry i) 0 } false) := by
  have length : (s.reportArms.flatMap s.reportEntry).length = 12 * s.reportArms.length := by
    simp [List.length_flatMap, reportEntry_length, Nat.mul_comm]
  have frame : ReadAsFrame s.buildReport := readAsFrame_report (reportArms_length s) length
  have ok : crc16Ok s.buildReport = true := crc16Ok_withCrc16 _
  have count : byteAt s.buildReport 4 = s.reportArms.length := by
    show (byte s.reportArms.length).toNat = _
    rw [byte, BitVec.toNat_ofNat]
    exact Nat.mod_eq_of_lt (by have := reportArms_length s; omega)
  have entries := entries_read (f := s.reportEntry) (reportEntry_length s) s.reportArms
    [reportKind, byte s.cfg.nodeAddress, s.scu.epoch, s.statusByte, byte s.reportArms.length]
    (two (crc16 ([reportKind, byte s.cfg.nodeAddress, s.scu.epoch, s.statusByte, byte s.reportArms.length]
      ++ s.reportArms.flatMap s.reportEntry)).toNat)
  rw [← List.append_assoc] at entries
  unfold checkFrame
  rw [if_pos (by rw [frame.whole, ok]; simp), count]
  refine (if_neg (show ¬ some reportKind = some requestKind by decide)).trans ?_
  rw [← entries]
  rfl

theorem readAsFrame_buildReport (s : State) : ReadAsFrame s.buildReport :=
  readAsFrame_report (reportArms_length s) (by simp [List.length_flatMap, reportEntry_length, Nat.mul_comm])

theorem checkFrame_request (s : State) : checkFrame s.buildRequest false = some (.request
    { sender := BitVec.ofNat 8 s.cfg.nodeAddress, epoch := s.scu.epoch } false) := by
  have frame : ReadAsFrame s.buildRequest := readAsFrame_request _ _
  have ok : crc16Ok s.buildRequest = true := crc16Ok_withCrc16 _
  unfold checkFrame
  rw [if_pos (by rw [frame.whole, ok]; simp)]
  rfl

/-- Settles O41. -/
theorem builtFramesAreReceivedWhole : Obligations.BuiltFramesAreReceivedWhole := by
  refine ⟨fun s => ⟨rfl, rfl, statusByte_eq s, fun i linked => reportEntry_eq linked⟩, fun l b => ⟨rfl, ?_, ?_⟩,
    fun s x ready => ⟨?_, ?_, fun i => entryBytes_entryAt (reportEntry_length s i), ?_⟩⟩
  · simp only [crc16, List.foldl_append, List.foldl_cons, List.foldl_nil, crc16Byte, ← crc16Bit_eq]
    rfl
  · rw [withCrc16, two_half]
  · exact (hears_frame (readAsFrame_buildReport s) ready).1
  · rw [(hears_frame (readAsFrame_buildReport s) ready).2, checkFrame_report]
    rfl
  · have heard := (hears_frame (readAsFrame_request (byte s.cfg.nodeAddress) s.scu.epoch) ready).2
    rw [show withCrc16 [requestKind, byte s.cfg.nodeAddress, s.scu.epoch] = s.buildRequest from rfl, checkFrame_request] at heard
    exact heard

end Sys2Proof.Machine

/-! ## The timers of a segment end, and CONFIRM CLEAR for an arm -/

namespace Sys2Proof.Machine

/-! ### A segment end changed -/

theorem seg_modSeg_same (s : State) (i : Arm) (f : SegEnd → SegEnd) :
    (s.modSeg i f).seg i = { f (s.seg i) with limit := ((s.modSeg i f).seg i).limit } := by
  obtain ⟨limit, e⟩ := relimit_fields s i (s.seg i) (f (s.seg i))
  rw [seg_modSeg, if_pos rfl, e]

theorem seg_modSeg_other {i j : Arm} (h : j ≠ i) (s : State) (f : SegEnd → SegEnd) : (s.modSeg i f).seg j = s.seg j := by
  rw [seg_modSeg, if_neg (Ne.symm h)]

theorem finish_seg (old u : State) (i : Arm) :
    (State.finish old u).seg i = { u.seg i with quiet := ((State.finish old u).seg i).quiet } := by
  obtain ⟨-, -, -, -, -, -, -, -, -, -, -, -, -, -, seg⟩ := finish_eventEnd old u
  exact seg i

theorem role_congr {s t : State} {i : Arm} (cfg : t.cfg = s.cfg) : t.role i = s.role i := by
  unfold State.role State.arm
  rw [cfg]

theorem fixedDirection_congr {s t : State} {i : Arm} (cfg : t.cfg = s.cfg) : t.fixedDirection i = s.fixedDirection i := by
  unfold State.fixedDirection State.arm
  rw [role_congr cfg, cfg]

/-- The far demand is a matter of the last-heard demand. -/
theorem farDemand_congr {s t : State} {i : Arm} (cfg : t.cfg = s.cfg) (demN : (t.seg i).demN = (s.seg i).demN) :
    t.farDemand i = s.farDemand i := by
  unfold State.farDemand
  rw [role_congr cfg, demN]

theorem steers_congr {s t : State} {i : Arm} (cfg : t.cfg = s.cfg) (part : t.part = s.part)
    (unsure : (t.seg i).unsure = (s.seg i).unsure) (isolated : (t.seg i).isolated = (s.seg i).isolated) :
    t.steers i = s.steers i := by
  unfold State.steers State.present State.arm SegEnd.condition
  rw [role_congr cfg, fixedDirection_congr cfg, cfg, part, unsure, isolated]

/-- Where no row of the direction table applies, an evaluation changes nothing. -/
theorem evaluate_of_no_row {s : State} {i : Arm} (row : s.row i = none) : s.evaluate i = s := by
  by_cases steers : s.steers i = true
  · exact (evaluate_of_steers steers).1 row
  · exact evaluate_of_not_steers (by simpa using steers)

theorem row_free {s : State} {i : Arm} (free : (s.seg i).dir = .free) (own : s.demand i = 0) (far : s.farDemand i = 0) :
    s.row i = none := by
  rw [State.row, (nextDirection_table _ _ _).1 free, own, far, if_pos ⟨rfl, rfl⟩]

/-! ### The hold timer -/

/-- An ACTIVE lock end in OUTBOUND whose hold timer has expired, with demand at both ends, begins to drain. -/
theorem evaluate_drains {s : State} {i : Arm} (steers : s.steers i = true) (outbound : (s.seg i).dir = .outbound)
    (hold : (s.seg i).hold = .expired) (own : 0 < s.demand i) (far : 0 < s.farDemand i)
    (occupied : ¬ ((s.seg i).occ = 0 ∧ (s.seg i).r = 0)) :
    ((s.evaluate i).seg i).dir = .draining ∧ ((s.evaluate i).seg i).hold = .stopped := by
  have row : s.row i = some .draining := by
    rw [State.row, (nextDirection_table _ _ _).2.1 outbound, if_neg (by omega), if_pos ⟨hold, far.ne'⟩]
  rw [(evaluate_of_steers steers).2.1 _ row]
  have seg := seg_modSeg_same s i (SegEnd.enterDirection .draining)
  rw [evaluate_of_no_row]
  · rw [seg]
    exact ⟨rfl, rfl⟩
  · rw [State.row, (nextDirection_table _ _ _).2.2.1 (by rw [seg]; rfl), if_neg]
    rw [seg]
    exact occupied

theorem does_holdTimerExpiry {i : Arm} {s : State} (released : s.scu.rstHeld = false) (runs : (s.seg i).hold.isRunning = true) :
    Does (.holdTimerExpiry i) s ((s.modSeg i fun g => { g with hold := .expired }).evaluate i) := by
  show Host.Outcome.next (s.event _) = _
  rw [event_of_released released, if_pos runs]

theorem does_quietProof {i : Arm} {s : State} (released : s.scu.rstHeld = false) (runs : (s.seg i).quiet.isRunning = true) :
    Does (.quietProof i) s (s.proveQuiet i) := by
  show Host.Outcome.next (s.event _) = _
  rw [event_of_released released, if_pos runs]

/-- Proved or confirmed clear, an end with no demand in either direction comes to rest in FREE (R108, R109). -/
theorem evaluate_rested {u : State} {i : Arm} (free : (u.seg i).dir = .free) (hold : (u.seg i).hold = .stopped)
    (own : u.demand i = 0) (far : u.farDemand i = 0) :
    ((u.evaluate i).seg i).dir = .free ∧ ((u.evaluate i).seg i).hold = .stopped := by
  rw [evaluate_of_no_row (row_free free own far)]
  exact ⟨free, hold⟩

/-- Settles O36. -/
theorem segmentTimers : Obligations.SegmentTimers := by
  refine fun i s released => ⟨fun runs => ⟨_, does_holdTimerExpiry released runs, ?_⟩,
    fun runs proves => ⟨_, does_quietProof released runs, ?_⟩⟩
  · have seg := seg_modSeg_same s i fun g => { g with hold := .expired }
    have steers : (s.modSeg i fun g => { g with hold := .expired }).steers i = s.steers i :=
      steers_congr rfl rfl (by rw [seg]) (by rw [seg])
    have far : (s.modSeg i fun g => { g with hold := .expired }).farDemand i = s.farDemand i := farDemand_congr rfl (by rw [seg])
    have demand : (s.modSeg i fun g => { g with hold := .expired }).demand i = s.demand i := rfl
    obtain ⟨scu, aqu, -, xu, -, nbrs, -, -, -, mtp, -⟩ := modSeg_keeps i (fun g => { g with hold := .expired }) s
    generalize s.modSeg i (fun g => { g with hold := .expired }) = u at *
    obtain ⟨e, x, r, occ, unsure, -⟩ := evaluate_counts i i u
    obtain ⟨scu', aqu', -, xu', -, nbrs', -, -, -, mtp', -⟩ := evaluate_keeps i u
    obtain ⟨scu'', aqu'', -, xu'', nbrs'', -, mtp'', -⟩ := finish_keeps s (u.evaluate i)
    rw [finish_seg]
    refine ⟨fun still => ?_, fun steers' outbound own demands occupied => ?_, e.trans (by rw [seg]), x.trans (by rw [seg]),
      r.trans (by rw [seg]), occ.trans (by rw [seg]), unsure.trans (by rw [seg]), scu''.trans (scu'.trans scu),
      aqu''.trans (aqu'.trans aqu), xu''.trans (xu'.trans xu), nbrs''.trans (nbrs'.trans nbrs), mtp''.trans (mtp'.trans mtp)⟩
    · rw [evaluate_of_not_steers (steers ▸ still), seg]
      exact ⟨rfl, rfl⟩
    · exact evaluate_drains (steers ▸ steers') (by rw [seg]; exact outbound) (by rw [seg]) (demand ▸ own) (far ▸ demands)
        (by rw [seg]; exact occupied)
  · obtain ⟨scu, aqu, -, xu, -, nbrs, -, -, -, mtp, -⟩ := proveQuiet_keeps i s
    obtain ⟨scu', aqu', -, xu', nbrs', -, mtp', -⟩ := finish_keeps s (s.proveQuiet i)
    have quiet := finish_quiet s (s.proveQuiet i) i
    have part : (s.proveQuiet i).part = s.part := by rw [State.part, scu, State.part]
    have proves' : (s.proveQuiet i).provesQuiet i = true := by
      have cfg : (s.proveQuiet i).cfg = s.cfg := by rw [State.cfg, scu, State.cfg]
      rw [← proves, State.provesQuiet, State.provesQuiet, State.present, State.present, State.arm, State.arm, role_congr cfg, cfg]
    refine ⟨fun empty known => ?_, fun unknown unsure working => ?_, ?_⟩
    · have eq : s.proveQuiet i = (s.modSeg i (SegEnd.rest (s.restDirection i))).evaluate i := if_pos ⟨empty, known⟩
      have seg := seg_modSeg_same s i (SegEnd.rest (s.restDirection i))
      rw [finish_seg, eq]
      refine ⟨?_, fun own far twoWay => ?_⟩
      · refine (evaluate_counts i i _).2.2.2.2.1.trans ?_
        rw [seg]
        rfl
      · refine evaluate_rested ?_ ?_ own ((farDemand_congr (s := s) (t := s.modSeg i _) rfl (by rw [seg]; rfl)).trans far)
        · rw [seg]
          show s.restDirection i = .free
          rw [State.restDirection, twoWay]
          rfl
        · rw [seg]
          rfl
    · have eq : s.proveQuiet i = s.modSeg i fun g => { g with quiet := .running 0 } := if_neg unknown
      have seg := seg_modSeg_same s i fun g => { g with quiet := .running 0 }
      rw [← eq] at seg
      rw [if_pos ⟨working, part ▸ working, proves'⟩] at quiet
      have runs' : quietAfter (s.seg i) ((s.proveQuiet i).seg i) = .running 0 := by
        rw [seg]
        simp [quietAfter, unsure]
      rw [finish_seg, quiet, runs', seg]
    · have counts : ((s.proveQuiet i).seg i).e = (s.seg i).e ∧ ((s.proveQuiet i).seg i).x = (s.seg i).x
          ∧ ((s.proveQuiet i).seg i).r = (s.seg i).r := by
        unfold State.proveQuiet
        split
        · obtain ⟨e, x, r, -⟩ := evaluate_counts i i (s.modSeg i (SegEnd.rest (s.restDirection i)))
          rw [e, x, r, seg_modSeg_same]
          exact ⟨rfl, rfl, rfl⟩
        · rw [seg_modSeg_same]
          exact ⟨rfl, rfl, rfl⟩
      rw [finish_seg]
      exact ⟨counts.1, counts.2.1, counts.2.2, scu'.trans scu, aqu'.trans aqu, xu'.trans xu, nbrs'.trans nbrs, mtp'.trans mtp⟩

/-! ### CONFIRM CLEAR for an arm -/

theorem exitInUse_iff {s : State} {j : Arm} : s.exitInUse j = true ↔ ∃ k m, s.move k = some m ∧ m.exit = j := by
  unfold State.exitInUse
  simp only [List.any_eq_true, Arm.mem_list, true_and]
  refine exists_congr fun k => ?_
  cases s.move k <;> simp

/-- The end of an arm confirmed clear, before its direction is evaluated (R109). -/
def State.confirmed (i : Arm) (s : State) : State :=
  let s' := s.modSeg i fun g => SegEnd.rest (s.restDirection i) { g with occ := 0, r := 0 }
  if s'.role i = .lock ∧ s'.limitOpen i (s'.seg i) = false then s'.modSeg i fun g => { g with limit := g.farCommitted } else s'

theorem confirmArm_eq (i : Arm) (s : State) : s.confirmArm i = ((s.confirmed i).evaluate i).scheduleChange := rfl

theorem confirmed_does (i : Arm) (s : State) :
    (s.confirmed i).seg i = { SegEnd.rest (s.restDirection i) { s.seg i with occ := 0, r := 0 } with
      limit := ((s.confirmed i).seg i).limit }
    ∧ (∀ j, j ≠ i → (s.confirmed i).seg j = s.seg j) ∧ (s.confirmed i).scu = s.scu ∧ (s.confirmed i).aqu = s.aqu := by
  have seg := seg_modSeg_same s i fun g => SegEnd.rest (s.restDirection i) { g with occ := 0, r := 0 }
  have other := fun j (h : j ≠ i) => seg_modSeg_other h s fun g => SegEnd.rest (s.restDirection i) { g with occ := 0, r := 0 }
  unfold State.confirmed
  dsimp only
  split
  · refine ⟨?_, fun j h => (seg_modSeg_other h _ _).trans (other j h), rfl, rfl⟩
    rw [seg_modSeg_same, seg]
  · exact ⟨seg, other, rfl, rfl⟩

/-- Settles O39. -/
theorem confirmClearArm : Obligations.ConfirmClearArm := by
  intro target s released working refused
  have does : Does (.confirmClearArm target) s _ :=
    does_act (owner := State.onArm target State.confirmClear) released working rfl
  refine ⟨fun beyond _ => ?_, fun i hi => ⟨fun absent => ?_, fun present far => ?_, fun present near used => ?_,
    fun present near unused => ?_⟩⟩
  · rw [onArm_none beyond] at does
    exact does
  · rw [onArm_absent hi absent] at does
    exact does
  · rw [onArm_present hi present, State.confirmClear, if_pos far] at does
    exact does
  · rw [onArm_present hi present, State.confirmClear, if_neg near, if_pos (exitInUse_iff.2 used)] at does
    exact does
  rw [onArm_present hi present, State.confirmClear, if_neg near, if_neg fun h => by
    obtain ⟨k, m, hk, hm⟩ := exitInUse_iff.1 h
    exact unused k m hk hm, settle_ok] at does
  obtain ⟨scu, aqu, closures, xu, -, nbrs, wkp, -, mtp, -⟩ := confirmArm_keeps i s
  have waits : (s.confirmArm i).fli.tx.changeWaiting = true := rfl
  have segs : ∀ j, (s.confirmArm i).seg j = ((s.confirmed i).evaluate i).seg j := fun _ => rfl
  obtain ⟨seg, others, scu₁, aqu₁⟩ := confirmed_does i s
  obtain ⟨e, x, r, occ, unsure, -, eN, xN, -, -, -, -, -, -, quiet⟩ := evaluate_counts i i (s.confirmed i)
  have rested : s.fixedDirection i = none → s.demand i = 0 → s.farDemand i = 0 → ((s.confirmArm i).seg i).dir = .free := by
    intro twoWay own far
    rw [segs]
    refine (evaluate_rested ?_ ?_ ?_ ((farDemand_congr (s := s) ?_ ?_).trans far)).1
    · rw [seg]
      show s.restDirection i = .free
      rw [State.restDirection, twoWay]
      rfl
    · rw [seg]
      rfl
    · simp only [State.demand, State.queue, aqu₁]
      exact own
    · rw [State.cfg, scu₁, State.cfg]
    · rw [seg]
      rfl
  have others' : ∀ j, j ≠ i → (s.confirmArm i).seg j = s.seg j := fun j h => by
    rw [segs, evaluate_other (Ne.symm h), others j h]
  rw [← segs] at e x r occ unsure eN xN quiet
  generalize s.confirmArm i = u at *
  obtain ⟨scu', aqu', closures', xu', nbrs', wkp', mtp', -⟩ := finish_keeps s (u.answered (.ok 0x14))
  have stopped := finish_quiet s (u.answered (.ok 0x14)) i
  have waits' := finish_changeWaiting s (u.answered (.ok 0x14))
  refine ⟨_, does, ?_⟩
  have fields := finish_seg s (u.answered (.ok 0x14)) i
  rw [seg] at e x r occ unsure eN xN quiet
  refine ⟨by rw [fields]; exact occ, by rw [fields]; exact r, by rw [fields]; exact unsure, by rw [fields]; exact e,
    by rw [fields]; exact x, by rw [fields]; exact eN, by rw [fields]; exact xN, ?_,
    fun twoWay own far => by rw [fields]; exact rested twoWay own far, ?_, fun j h => ?_, ?_, scu'.trans scu, aqu'.trans aqu,
    closures'.trans closures, xu'.trans xu, nbrs'.trans nbrs, wkp'.trans wkp⟩
  · rw [stopped]
    split
    · exact if_neg (by rw [show ((u.answered (.ok 0x14)).seg i).unsure = false from unsure]; exact Bool.false_ne_true)
    · exact quiet
  · rw [waits']
    show (u.fli.tx.changeWaiting || _) = true
    rw [waits, Bool.true_or]
  · rw [finish_seg, show (u.answered (.ok 0x14)).seg j = s.seg j from others' j h]
    exact ⟨rfl, rfl, rfl⟩
  · rw [mtp']
    unfold State.answered
    rw [mtp]

end Sys2Proof.Machine

/-! ## Views taken under the consistency test -/

namespace Sys2Proof.Machine

theorem effCapacity_congr {s t : State} {i : Arm} (cfg : t.cfg = s.cfg) (capN : (t.seg i).capN = (s.seg i).capN) :
    t.effCapacity i = s.effCapacity i := by
  unfold State.effCapacity SegEnd.capacity State.arm
  rw [cfg, capN]

/-- What comes behind a view taken and changes neither view nor flags. -/
theorem ViewTested.after {i : Arm} {v : Int} {r : Nat} {s t u : State} (h : ViewTested i v r s t)
    (occ : (u.seg i).occ = (t.seg i).occ) (unsure : (u.seg i).unsure = (t.seg i).unsure)
    (flag : u.flagged .countInconsistent = t.flagged .countInconsistent) : ViewTested i v r s u :=
  ⟨occ.trans h.1, by rw [unsure]; exact h.2.1, by rw [flag]; exact h.2.2⟩

/-- What comes before a view is taken and changes neither capacity nor flags. -/
theorem ViewTested.before {i : Arm} {v : Int} {r : Nat} {s t u : State} (h : ViewTested i v r s t) (cfg : s.cfg = u.cfg)
    (capN : (s.seg i).capN = (u.seg i).capN) (unsure : (s.seg i).unsure = (u.seg i).unsure)
    (flag : s.flagged .countInconsistent = u.flagged .countInconsistent) : ViewTested i v r u t := by
  have fails : s.viewFails i v r = u.viewFails i v r := by
    unfold State.viewFails
    rw [effCapacity_congr cfg capN, role_congr cfg]
  obtain ⟨occ, unsure', flag'⟩ := h
  rw [fails, unsure] at unsure'
  rw [fails, flag] at flag'
  exact ⟨occ, unsure', flag'⟩

theorem ViewTested.finish {i : Arm} {v : Int} {r : Nat} {s t : State} (h : ViewTested i v r s t) (old : State) :
    ViewTested i v r s (State.finish old t) := by
  have seg := finish_seg old t i
  refine h.after (by rw [seg]) (by rw [seg]) ?_
  rw [State.flagged, (finish_keeps old t).2.2.2.2.2.2.1, State.flagged]

theorem ViewTested.evaluate {i : Arm} {v : Int} {r : Nat} {s t : State} (h : ViewTested i v r s t) (j : Arm) :
    ViewTested i v r s (t.evaluate j) := by
  obtain ⟨-, -, -, occ, unsure, -⟩ := evaluate_counts j i t
  refine h.after occ unsure ?_
  rw [State.flagged, (evaluate_keeps j t).2.2.2.2.2.2.2.2.2.1, State.flagged]

/-- A view taken behind a change of the counts of its end. -/
theorem takeView_modSeg {i : Arm} {f : SegEnd → SegEnd} {s : State} (capN : ∀ g, (f g).capN = g.capN)
    (unsure : ∀ g, (f g).unsure = g.unsure) (v : Int) :
    ViewTested i v (f (s.seg i)).r s ((s.modSeg i f).takeView i v) := by
  have seg := seg_modSeg_same s i f
  have tested := takeView_tested i v (s.modSeg i f)
  rw [show ((s.modSeg i f).seg i).r = (f (s.seg i)).r by rw [seg]] at tested
  exact tested.before rfl (by rw [seg]; exact capN _) (by rw [seg]; exact unsure _) rfl

/-- A reservation is taken under the consistency test (R93, R96). -/
theorem takeReservation_tested (i : Arm) (s : State) :
    ViewTested i (s.seg i).occ (min 15 ((s.seg i).r + 1)) s (s.takeReservation i) := by
  have occ : ((s.modSeg i fun g => { g with r := min 15 (g.r + 1) }).seg i).occ = (s.seg i).occ := by rw [seg_modSeg_same]
  unfold State.takeReservation State.retestView
  rw [occ]
  exact takeView_modSeg (f := fun g => { g with r := min 15 (g.r + 1) }) (fun _ => rfl) (fun _ => rfl) _

/-- A reservation is released under the consistency test (R93, R96). -/
theorem releaseReservation_released (i : Arm) (s : State) : Released i s (s.releaseReservation i) := by
  refine ⟨by rw [(releaseReservation_counts i i s).1, if_pos rfl], fun some' => ?_, fun none' => ?_⟩
  · have occ : ((s.modSeg i fun g => { g with r := g.r - 1 }).seg i).occ = (s.seg i).occ := by rw [seg_modSeg_same]
    unfold State.releaseReservation State.retestView
    rw [if_neg some', occ]
    exact (takeView_modSeg (f := fun g => { g with r := g.r - 1 }) (fun _ => rfl) (fun _ => rfl) _).evaluate i
  · unfold State.releaseReservation
    rw [if_pos none']
    obtain ⟨-, -, -, occ, unsure, -⟩ := evaluate_counts i i s
    refine ⟨occ, unsure, ?_⟩
    rw [State.flagged, (evaluate_keeps i s).2.2.2.2.2.2.2.2.2.1, State.flagged]

/-- E is counted under the consistency test (R92, R93, R96). -/
theorem countE_tested (i : Arm) (consume : Bool) (s : State) :
    ViewTested i ((s.seg i).occ + 1) (if consume then (s.seg i).r - 1 else (s.seg i).r) s (s.countE i consume) := by
  have occ : ((s.modSeg i fun g => { g with e := g.e + 1, r := if consume then g.r - 1 else g.r }).seg i).occ = (s.seg i).occ := by
    rw [seg_modSeg_same]
  unfold State.countE
  dsimp only
  rw [occ]
  exact (takeView_modSeg (f := fun g => { g with e := g.e + 1, r := if consume then g.r - 1 else g.r })
    (fun _ => rfl) (fun _ => rfl) _).evaluate i

/-- X is counted under the consistency test (R92, R96). -/
theorem countX_tested (i : Arm) (s : State) :
    ViewTested i ((s.seg i).occ - 1) (s.seg i).r s (s.countX i) := by
  have occ : ((s.modSeg i fun g => { g with x := g.x + 1 }).seg i).occ = (s.seg i).occ := by rw [seg_modSeg_same]
  unfold State.countX
  dsimp only
  rw [occ]
  exact (takeView_modSeg (f := fun g => { g with x := g.x + 1 }) (fun _ => rfl) (fun _ => rfl) _).evaluate i

theorem ViewTested.onQueue {i : Arm} {v : Int} {r : Nat} {s t : State} (h : ViewTested i v r s t) (j : Arm)
    (f : List Carrier → List Carrier) : ViewTested i v r s (t.onQueue j f) := by
  obtain ⟨-, -, -, occ, unsure⟩ := onQueue_counts j i f t
  refine h.after occ unsure ?_
  rw [State.flagged, (onQueue_keeps j f t).2.2.2.2.2.2.1, State.flagged]

end Sys2Proof.Machine

/-! ## The end of a designation, exactly -/

namespace Sys2Proof.Machine

theorem unreserve_eq (id : CarrierId) (x : Cell) : x.unreserve id = if x = .reserved id then .free else x := by
  cases x <;> simp [Cell.unreserve]

theorem map_eq_build {α β : Type} (f : α → β) (q : Quad α) : q.map f = .build fun k => f (q.get k) := rfl

/-- The end of a designation (R53, R85), as one change of the state. -/
theorem endOverdue_eq {s : State} {o : Overdue} (ho : s.jar.overdue = some o) :
    s.endOverdue = { s with
      jar := { s.jar with
        overdue := none, due := s.jar.due || (s.granting && Arm.list.any fun k => s.cell k == .reserved o.id) }
      aqu := { s.aqu with queues := s.aqu.queues.set o.arrival (updateRecord o.id Carrier.undesignated (s.queue o.arrival)) }
      xu := { s.xu with cells := .build fun k => if s.cell k = .reserved o.id then .free else s.cell k } } := by
  have freed : s.xu.cells.toList.any (Cell.reservedFor o.id) = Arm.list.any fun k => s.cell k == .reserved o.id := by
    have reserved (x : Cell) : x.reservedFor o.id = (x == .reserved o.id) := by
      cases x <;> simp [Cell.reservedFor, beq_eq_decide]
    simp only [funext reserved]
    rfl
  unfold State.endOverdue
  rw [ho]
  dsimp only
  have cells : s.xu.cells.map (Cell.unreserve o.id)
      = .build fun k => if s.cell k = .reserved o.id then .free else s.cell k := by
    rw [map_eq_build]
    simp only [unreserve_eq]
    rfl
  rw [freed]
  cases h : (Arm.list.any fun k => s.cell k == .reserved o.id)
  · rw [if_neg Bool.false_ne_true, Bool.and_false, Bool.or_false]
    simp only [State.mapCells, State.putQueue, cells]
    rfl
  · rw [if_pos rfl, trigger_eq, Bool.and_true]
    simp only [State.mapCells, State.putQueue, cells]
    rfl

theorem endOverdue_due {s : State} {o : Overdue} (ho : s.jar.overdue = some o) (grants : s.granting = true)
    (reserved : ∃ k, s.cell k = .reserved o.id) : s.endOverdue.jar.due = true := by
  obtain ⟨k, hk⟩ := reserved
  have some' : (Arm.list.any fun k => s.cell k == .reserved o.id) = true :=
    List.any_eq_true.2 ⟨k, Arm.mem_list k, by simp [hk]⟩
  rw [endOverdue_eq ho]
  show (_ || (s.granting && _)) = true
  rw [grants, some', Bool.and_true, Bool.or_true]

/-- A queue changed: demand, trigger and directions, and then the test of the designation. -/
theorem onQueue_checks (s : State) (i : Arm) (f : List Carrier → List Carrier) : ∃ u : State, s.onQueue i f = u.checkOverdue
    ∧ u.jar.overdue = s.jar.overdue ∧ u.xu = s.xu ∧ u.scu = s.scu ∧ u.hld = s.hld ∧ (s.jar.due = true → u.jar.due = true)
    ∧ u.aqu = { s.aqu with queues := s.aqu.queues.set i (f (s.queue i)) } := by
  have jar : (State.noteDemand s (s.putQueue i (f (s.queue i)))).jar = s.jar := by simp
  unfold State.onQueue
  dsimp only
  refine ⟨_, rfl, ?_⟩
  split
  · refine ⟨by simp, by simp, by simp, by simp, fun due => ?_, by simp [State.putQueue]⟩
    rw [(trigger_jar _).2.2.2.2.2, jar, due, Bool.true_or]
  · refine ⟨by simp, by simp, by simp, by simp, fun due => ?_, by simp [State.putQueue]⟩
    rw [jar, due]

/-- The designation no longer stands by its record after arm `i` has got the queue `q` (R85). -/
def State.fallsBy (s : State) (i : Arm) (q : List Carrier) (o : Overdue) : Prop :=
  ∀ h, (if i = o.arrival then q.head? else s.head o.arrival) = some h → ¬ (h.id = o.id ∧ h.state = .waiting ∧ h.exit = o.exit)

/-- From `s` to `t` a queue has been changed and the designation has ended with it. -/
structure DesignationEnded (o : Overdue) (i : Arm) (f : List Carrier → List Carrier) (s t : State) : Prop where
  overdue : t.jar.overdue = none
  queue : ∀ j, t.queue j = if o.arrival = j then
      updateRecord o.id Carrier.undesignated (if i = o.arrival then f (s.queue i) else s.queue o.arrival)
    else if i = j then f (s.queue i) else s.queue j
  cells : ∀ k, t.cell k = if s.cell k = .reserved o.id then .free else s.cell k
  due : s.granting = true → (∃ k, s.cell k = .reserved o.id) → t.jar.due = true
  moves : t.xu.moves = s.xu.moves
  unmatched : t.xu.unmatched = s.xu.unmatched
  sends : t.aqu.sends = s.aqu.sends

theorem onQueue_ended {s : State} {i : Arm} {f : List Carrier → List Carrier} {o : Overdue} (ho : s.jar.overdue = some o)
    (falls : s.fallsBy i (f (s.queue i)) o) : DesignationEnded o i f s (s.onQueue i f) := by
  obtain ⟨u, check, overdue, xu, scu, hld, due, aqu⟩ := onQueue_checks s i f
  have queue : ∀ j, u.queue j = if i = j then f (s.queue i) else s.queue j := queue_of_set (congrArg Aqu.queues aqu)
  have fallen : ¬ u.overdueStands o = true := fun stands => by
    obtain ⟨h, hh, rest⟩ := (overdueStands_iff u o).1 stands
    refine falls h ?_ rest
    rw [State.head, queue] at hh
    split
    · next e => rwa [if_pos e] at hh
    · next e => rwa [if_neg e] at hh
  have ends : s.onQueue i f = u.endOverdue := by
    rw [check, State.checkOverdue, overdue, ho]
    exact if_neg fallen
  have ho' : u.jar.overdue = some o := overdue.trans ho
  have cell : ∀ k, u.cell k = s.cell k := fun k => by rw [State.cell, xu, State.cell]
  rw [ends]
  refine ⟨(endOverdue_does u).1, fun j => ?_, fun k => ?_, fun grants reserved => ?_, ?_, ?_, ?_⟩
  · rw [(endOverdue_does u).2.1, ho']
    dsimp only
    by_cases here : o.arrival = j
    · subst here
      rw [if_pos rfl, if_pos rfl, queue]
      rfl
    · rw [if_neg here, if_neg here, queue]
  · rw [(endOverdue_does u).2.2.1, ho']
    dsimp only
    rw [unreserve_eq, cell]
  · refine endOverdue_due ho' ((granting_of_keeps scu hld).trans grants) ?_
    simpa only [cell] using reserved
  · rw [endOverdue_eq ho']
    show u.xu.moves = _
    rw [xu]
  · rw [endOverdue_eq ho']
    show u.xu.unmatched = _
    rw [xu]
  · rw [endOverdue_eq ho']
    show u.aqu.sends = _
    rw [aqu]

end Sys2Proof.Machine

/-! ## Grants and follow-on grants -/

namespace Sys2Proof.Machine

/-- The change of the record of a granted carrier (R57, step 5). -/
def Carrier.granted (c : Carrier) : Carrier := { c with state := .granted, skip := 0 }

theorem finishGrant_eq (c : Carrier) (s : State) : s.finishGrant c =
    ((s.takeReservation c.exit).onRecord c.arrival c.id Carrier.granted).clearanceDue c.arrival c.id := rfl

/-- What steps 4 to 6 of a grant leave, from the state `s` before the grant (R57). -/
structure GrantFinished (c : Carrier) (s t : State) : Prop where
  r : (t.seg c.exit).r = min 15 ((s.seg c.exit).r + 1)
  tested : ViewTested c.exit (s.seg c.exit).occ (min 15 ((s.seg c.exit).r + 1)) s t
  record : t.recordOn c.arrival c.id = some c.granted
  queue : t.queue c.arrival = updateRecord c.id Carrier.granted (s.queue c.arrival)
  queues : ∀ j, j ≠ c.arrival → t.queue j = s.queue j
  sends : t.aqu.sends = s.aqu.sends.set c.arrival (withClearance c.id (s.aqu.sends.get c.arrival))
  overdue : t.jar.overdue = s.jar.overdue
  scu : t.scu = s.scu
  closures : t.closures = s.closures
  nbrs : t.nbrs = s.nbrs
  hld : t.hld = s.hld
  wkp : t.wkp = s.wkp

/-- A grant is finished in the state `u`, which is `s` but for the crossing. -/
theorem finishGrant_finishes {c : Carrier} {s u : State} (hu : u = { s with xu := u.xu })
    (spares : DesignationSpares s c.arrival c.id) (record : s.recordOn c.arrival c.id = some c) :
    GrantFinished c s (u.finishGrant c) ∧ (u.finishGrant c).xu = u.xu := by
  generalize hx : u.xu = x at hu
  subst hu
  obtain ⟨scu, aqu, closures, xu, jar, nbrs, -, wkp, hld, -⟩ := takeReservation_keeps c.exit { s with xu := x }
  have tested := (takeReservation_tested c.exit { s with xu := x }).before (u := s) rfl rfl rfl rfl
  have r := (takeReservation_counts c.exit c.exit { s with xu := x }).1
  rw [if_pos rfl] at r
  rw [finishGrant_eq]
  generalize State.takeReservation c.exit { s with xu := x } = v at *
  have queue : ∀ j, v.queue j = s.queue j := fun j => by rw [State.queue, aqu, State.queue]
  have spares' : DesignationSpares v c.arrival c.id := spares.of_keeps (congrArg Aqu.queues aqu) (congrArg Jar.overdue jar)
  have changed := recordChanged c.arrival c.arrival spares' (f := Carrier.granted) fun _ => rfl
  have hld' : ((v.onRecord c.arrival c.id Carrier.granted).clearanceDue c.arrival c.id).hld = v.hld := by simp
  have tested' : ViewTested c.exit (s.seg c.exit).occ (min 15 ((s.seg c.exit).r + 1)) s
      ((v.onRecord c.arrival c.id Carrier.granted).clearanceDue c.arrival c.id) := by
    rw [clearanceDue_eq]
    exact tested.onQueue c.arrival _
  refine ⟨⟨(changed.reserved c.exit).trans r, tested', ?_, ?_, fun j hj => (changed.queues j hj).trans (queue j), ?_,
    changed.overdue.trans (congrArg Jar.overdue jar), changed.scu.trans scu, changed.closures.trans closures,
    changed.nbrs.trans nbrs, hld'.trans hld, changed.wkp.trans wkp⟩, changed.xu.trans xu⟩
  · rw [changed.record, State.recordOn, queue, ← State.recordOn, record, Option.map_some]
  · rw [changed.queue, queue]
  · rw [changed.sends, aqu]

theorem grantExecutable_iff {s : State} {c : Carrier} : s.grantExecutable c = true ↔
    s.granting = true ∧ s.move c.arrival = none ∧ ∀ k ∈ cellSet c.arrival c.exit, s.cell k = .free ∨ s.cell k = .reserved c.id := by
  simp [State.grantExecutable, cellsTakable_iff, and_assoc]

theorem part_of_granting {s : State} (h : s.granting = true) : s.part = .running := by
  have := (Bool.and_eq_true_iff.1 h).1
  simpa using this

/-- The crossing as a grant that creates a record has taken it, before the record and the reservation (R57). -/
def State.opened (c : Carrier) (rescue : Bool) (s : State) : State :=
  (s.setMove c.arrival (some { exit := c.exit, carriers := [grantedEntry c], followOns := 0, rescued := rescue })).mapCellsIn
    (cellSet c.arrival c.exit) (fun _ => .held c.arrival)

theorem opened_move (c : Carrier) (rescue : Bool) (s : State) (i : Arm) : (s.opened c rescue).move i =
    if i = c.arrival then some ⟨c.exit, [grantedEntry c], 0, rescue⟩ else s.move i := by
  rw [State.opened, move_mapCellsIn, move_setMove]
  exact if_congr eq_comm rfl rfl

theorem opened_cell (c : Carrier) (rescue : Bool) (s : State) (k : Arm) : (s.opened c rescue).cell k =
    if k ∈ cellSet c.arrival c.exit then .held c.arrival else s.cell k := by
  rw [State.opened, cell_mapCellsIn, cell_setMove]
  simp

theorem executeGrant_eq {s : State} {c : Carrier} (executable : s.grantExecutable c = true) (rescue : Bool) :
    s.executeGrant c rescue = (s.opened c rescue).finishGrant c := if_pos executable

/-- A grant that creates a record, the designation being for another carrier or none (R57). -/
structure GrantOpened (c : Carrier) (rescue : Bool) (s t : State) : Prop extends GrantFinished c s t where
  moves : ∀ i, t.move i = if i = c.arrival then some ⟨c.exit, [grantedEntry c], 0, rescue⟩ else s.move i
  cells : ∀ k, t.cell k = if k ∈ cellSet c.arrival c.exit then .held c.arrival else s.cell k
  unmatched : t.xu.unmatched = s.xu.unmatched

theorem executeGrant_opens {s : State} {c : Carrier} (executable : s.grantExecutable c = true) (rescue : Bool)
    (spares : DesignationSpares s c.arrival c.id) (record : s.recordOn c.arrival c.id = some c) :
    GrantOpened c rescue s (s.executeGrant c rescue) := by
  obtain ⟨finished, xu⟩ := finishGrant_finishes (u := s.opened c rescue) rfl spares record
  rw [executeGrant_eq executable]
  exact
    { finished with
      moves := fun i => by rw [State.move, xu, ← State.move, opened_move]
      cells := fun k => by rw [State.cell, xu, ← State.cell, opened_cell]
      unmatched := by rw [xu]; rfl }

theorem executeFollowOn_eq {s : State} {c : Carrier} {m : Movement} (move : s.move c.arrival = some m) :
    s.executeFollowOn c = if s.followOnExecutable c m then
      (s.setMove c.arrival (some { m with carriers := m.carriers ++ [grantedEntry c], followOns := m.followOns + 1 })).finishGrant c
    else s := by
  unfold State.executeFollowOn
  rw [move]

theorem goLamp_of_granted {s t : State} {i : Arm} {m : Movement} {e : Entry} (running : s.part = .running) (scu : t.scu = s.scu)
    (move : t.move i = some m) (mem : e ∈ m.carriers) (granted : e.status.isGranted = true) : t.goLamp i = true := by
  have part : t.part = .running := by rw [State.part, scu, ← State.part, running]
  unfold State.goLamp
  rw [part, move]
  simpa using ⟨e, mem, granted⟩

/-- A grant to the overdue carrier ends its designation (R85). -/
theorem executeGrant_endsDesignation {s : State} {c : Carrier} {o : Overdue} (ho : s.jar.overdue = some o)
    (hid : o.id = c.id) (here : o.arrival = c.arrival) (executable : s.grantExecutable c = true) (rescue : Bool) :
    (s.executeGrant c rescue).jar.overdue = none
    ∧ ∀ k ∈ cellSet c.arrival c.exit, (s.executeGrant c rescue).cell k = .held c.arrival := by
  rw [executeGrant_eq executable]
  refine ⟨?_, fun k hk => ((sameHeld_finishGrant c (s.opened c rescue)).2 k c.arrival).2 (by rw [opened_cell, if_pos hk])⟩
  obtain ⟨-, aqu, -, -, jar, -⟩ := takeReservation_keeps c.exit (s.opened c rescue)
  have ho' : (State.takeReservation c.exit (s.opened c rescue)).jar.overdue = some o := by rw [jar]; exact ho
  have queue : (State.takeReservation c.exit (s.opened c rescue)).queue c.arrival = s.queue c.arrival := by
    rw [State.queue, aqu]
    rfl
  have falls : (State.takeReservation c.exit (s.opened c rescue)).fallsBy c.arrival
      (updateRecord c.id Carrier.granted ((State.takeReservation c.exit (s.opened c rescue)).queue c.arrival)) o := by
    rintro h hh ⟨hid', waiting, -⟩
    rw [if_pos here.symm, head_updateRecord, queue] at hh
    obtain ⟨h', -, rfl⟩ := Option.map_eq_some_iff.1 hh
    by_cases same : h'.id = c.id
    · rw [if_pos same] at waiting
      exact absurd waiting nofun
    · rw [if_neg same] at hid'
      exact same (hid'.trans hid)
  have ended := (onQueue_ended ho' falls).overdue
  rw [finishGrant_eq, clearanceDue_eq]
  exact ended

/-! ### The follow-on opportunity -/

theorem cellsMeet_iff {a b : List Arm} : cellsMeet a b = true ↔ ∃ k, k ∈ a ∧ k ∈ b := by
  simp [cellsMeet]

theorem overdueAllows_iff {s : State} {h : Carrier} {i j : Arm} : s.overdueAllows h i j = true ↔
    ∀ o, s.jar.overdue = some o → o.id = h.id ∨ ∀ k, ¬ (k ∈ cellSet o.arrival o.exit ∧ k ∈ cellSet i j) := by
  unfold State.overdueAllows
  cases s.jar.overdue with
  | none => simp
  | some o =>
    have apart : cellsMeet (cellSet o.arrival o.exit) (cellSet i j) = false ↔
        ∀ k, ¬ (k ∈ cellSet o.arrival o.exit ∧ k ∈ cellSet i j) := by
      rw [← Bool.not_eq_true, cellsMeet_iff, not_exists]
    simp only [Bool.or_eq_true, beq_iff_eq, Bool.not_eq_true', apart, Option.some.injEq, forall_eq']

theorem offersFollowOn_iff {s : State} {m : Movement} : s.offersFollowOn m = true ↔
    (∃ front e, m.carriers = front ++ [e] ∧ e.isCrossing = true) ∧ m.followOns < s.cfg.platoon
      ∧ m.carriers.length < 1 + s.cfg.platoon := by
  unfold State.offersFollowOn
  simp only [Bool.and_eq_true, decide_eq_true_eq, and_assoc]
  refine and_congr_left' ?_
  cases last : m.carriers.getLast? with
  | none => simp [List.getLast?_eq_none_iff.1 last]
  | some e =>
    refine ⟨fun crossing => ?_, ?_⟩
    · obtain ⟨front, h⟩ := List.getLast?_eq_some_iff.1 last
      exact ⟨front, e, h, crossing⟩
    · rintro ⟨front, e', h, crossing⟩
      rw [h, List.getLast?_concat] at last
      exact Option.some.inj last ▸ crossing

theorem followOnTest_eq {s : State} {i : Arm} {m : Movement} {h : Carrier} (move : s.move i = some m) (head : s.head i = some h) :
    s.followOnTest i = if s.offersFollowOn m && s.followOnAllowed h i m.exit then (s.executeFollowOn h).afterGrant h.id else s := by
  unfold State.followOnTest
  rw [move, head]

theorem followOnTest_none {s : State} {i : Arm} (none' : s.move i = none ∨ s.head i = none) : s.followOnTest i = s := by
  unfold State.followOnTest
  rcases none' with h | h <;> rw [h]
  cases s.move i <;> rfl

theorem granting_iff {s : State} : s.granting = true ↔ s.part = .running ∧ s.held = false := by
  simp [State.granting]

/-- Settles O25. -/
theorem grantAndFollowOn : Obligations.GrantAndFollowOn := by
  refine ⟨fun s i m h move head => ?_, fun s i => followOnTest_none, fun s c o rescue _ ho hid here _ executable =>
    executeGrant_endsDesignation ho hid here executable rescue, fun s c rescue =>
      ⟨fun refused => if_neg (by simp [refused]), fun m move refused => ?_, fun spares record => ?_⟩⟩
  · intro allowed
    have tests : (s.offersFollowOn m && s.followOnAllowed h i m.exit) = true ↔ allowed := by
      simp only [Bool.and_eq_true, offersFollowOn_iff, State.followOnAllowed, beq_iff_eq, overdueAllows_iff, walkPermits_iff,
        granting_iff, and_assoc, allowed]
    rw [followOnTest_eq move head]
    exact ⟨fun h => if_pos (tests.2 h), fun h => if_neg (mt tests.1 h)⟩
  · rw [executeFollowOn_eq move, if_neg (by simp [refused])]
  · intro entry granted
    refine ⟨fun executable => ?_, fun m move executable => ?_⟩
    · have t := executeGrant_opens executable rescue spares record
      have running := part_of_granting (grantExecutable_iff.1 executable).1
      refine ⟨⟨t.r, t.tested, t.record, t.sends, ?_, t.unmatched, t.scu, t.closures, t.hld, t.wkp⟩, t.moves, t.cells⟩
      exact goLamp_of_granted running t.scu ((t.moves _).trans (if_pos rfl)) (List.mem_singleton.2 rfl) rfl
    · obtain ⟨t, xu⟩ := finishGrant_finishes (u := s.setMove c.arrival
        (some { m with carriers := m.carriers ++ [grantedEntry c], followOns := m.followOns + 1 })) rfl spares record
      have running : s.part = .running := by
        simp only [State.followOnExecutable, Bool.and_eq_true] at executable
        exact part_of_granting executable.1.1
      rw [executeFollowOn_eq move, if_pos executable]
      generalize State.finishGrant c _ = u at t xu
      have moves : ∀ i, u.move i = if i = c.arrival then
          some { m with carriers := m.carriers ++ [entry], followOns := m.followOns + 1 } else s.move i := fun i => by
        rw [State.move, xu, ← State.move, move_setMove]
        exact if_congr eq_comm rfl rfl
      refine ⟨⟨t.r, t.tested, t.record, t.sends, ?_, by rw [xu]; rfl, t.scu, t.closures, t.hld, t.wkp⟩, moves, fun k => ?_⟩
      · exact goLamp_of_granted running t.scu ((moves _).trans (if_pos rfl)) (List.mem_append_right _ (List.mem_singleton.2 rfl)) rfl
      · rw [State.cell, xu]
        rfl

end Sys2Proof.Machine

/-! ## Skip counts and the designation -/

namespace Sys2Proof.Machine

/-- A queue after a grant to carrier `id` (R82). -/
def State.risen (id : CarrierId) (s : State) (q : List Carrier) : List Carrier :=
  match q with
  | [] => []
  | h :: rest =>
    (if h.id ≠ id ∧ s.waitsOnCrossing h = true then { h with skip := min s.cfg.skipMax (h.skip + 1) } else h) :: rest

theorem updateRecord_head {h : Carrier} {rest : List Carrier} (f : Carrier → Carrier) (single : ∀ r ∈ rest, r.id ≠ h.id) :
    updateRecord h.id f (h :: rest) = f h :: rest := by
  rw [updateRecord, List.map_cons, if_pos rfl, List.map_congr_left fun r hr => if_neg (single r hr), List.map_id']

theorem set_same {α : Type} (q : Quad α) (i : Arm) : q.set i (q.get i) = q := by
  refine Quad.ext_get fun j => ?_
  rw [Quad.get_set]
  split
  · next e => rw [e]
  · rfl

theorem putQueue_same (i : Arm) (s : State) : s.putQueue i (s.queue i) = s := by
  rw [State.putQueue, State.queue, set_same]

theorem raiseSkip_eq {id : CarrierId} {i : Arm} {s : State} (single : ((s.queue i).map Carrier.id).Nodup) :
    State.raiseSkip id s i = s.putQueue i (s.risen id (s.queue i)) := by
  unfold State.raiseSkip State.risen
  cases q : s.queue i with
  | nil =>
    have none' : s.head i = none := by rw [State.head, q]; rfl
    rw [none']
    exact (putQueue_same i s).symm.trans (by rw [q])
  | cons h rest =>
    have head : s.head i = some h := by rw [State.head, q]; rfl
    rw [head]
    dsimp only
    rw [q, List.map_cons, List.nodup_cons] at single
    by_cases raised : h.id ≠ id ∧ s.waitsOnCrossing h = true
    · rw [if_pos raised, if_pos (by simpa using raised), updateRecord_head _ fun r hr e => single.1 (e ▸ List.mem_map_of_mem hr)]
      rfl
    · rw [if_neg raised, if_neg (by simpa using raised), ← q, putQueue_same]

theorem raiseSkips_eq {id : CarrierId} {s : State} (single : ∀ i, ((s.queue i).map Carrier.id).Nodup) :
    s.raiseSkips id = { s with aqu := { s.aqu with queues := .build fun i => s.risen id (s.queue i) } } := by
  have raise (t : State) (ht : t = { s with aqu := { s.aqu with queues := t.aqu.queues } }) (i : Arm)
      (same : t.queue i = s.queue i) : State.raiseSkip id t i = t.putQueue i (s.risen id (s.queue i)) := by
    have risen : t.risen id = s.risen id := by rw [ht]; rfl
    rw [raiseSkip_eq (by rw [same]; exact single i), same, risen]
  unfold State.raiseSkips
  simp only [Arm.list, List.foldl_cons, List.foldl_nil]
  have h0 := raise s rfl 0 rfl
  have h1 := raise (s.putQueue 0 (s.risen id (s.queue 0))) rfl 1 rfl
  have h2 := raise ((s.putQueue 0 (s.risen id (s.queue 0))).putQueue 1 (s.risen id (s.queue 1))) rfl 2 rfl
  have h3 := raise (((s.putQueue 0 (s.risen id (s.queue 0))).putQueue 1 (s.risen id (s.queue 1))).putQueue 2
    (s.risen id (s.queue 2))) rfl 3 rfl
  rw [h0, h1, h2, h3]
  rfl

theorem designate_eq (c : Carrier) (s : State) :
    let marked := (s.queue c.arrival).map fun r => if r.id = c.id then { r with overdue := true } else r
    s.designate c = { s with
      jar := { s.jar with overdue := some ⟨c.id, c.arrival, c.exit⟩, due := s.jar.due || s.granting }
      aqu := { s.aqu with queues := s.aqu.queues.set c.arrival marked }
      xu := { s.xu with
        cells := .build fun k =>
          if k ∈ cellSet c.arrival c.exit ∧ s.cell k = .free then .reserved c.id else s.cell k } } := by
  intro marked
  have cells : (fun k => if (cellSet c.arrival c.exit).contains k then (s.cell k).reserveFor c.id else s.cell k)
      = fun k => if k ∈ cellSet c.arrival c.exit ∧ s.cell k = .free then .reserved c.id else s.cell k := by
    funext k
    by_cases inside : k ∈ cellSet c.arrival c.exit
    · rw [if_pos (by simpa using inside)]
      cases s.cell k <;> simp [Cell.reserveFor, inside]
    · rw [if_neg (by simpa using inside), if_neg fun h => inside h.1]
  rw [← cells]
  unfold State.designate
  rw [trigger_eq]
  rfl

/-! ### What ends a designation -/

/-- What the end of the designation `o` leaves of `s` (R53, R85). -/
structure EndsDesignation (o : Overdue) (s t : State) : Prop where
  overdue : t.jar.overdue = none
  cells : ∀ k, t.cell k = if s.cell k = .reserved o.id then .free else s.cell k
  records : ∀ r ∈ t.queue o.arrival, r.id = o.id → r.overdue = false ∧ r.skip = 0
  due : s.granting = true → (∃ k, s.cell k = .reserved o.id) → t.jar.due = true
  moves : t.xu.moves = s.xu.moves
  scu : t.scu = s.scu
  closures : t.closures = s.closures

theorem mem_updateRecord_undesignated {id : CarrierId} {q : List Carrier} {r : Carrier}
    (h : r ∈ updateRecord id Carrier.undesignated q) (hid : r.id = id) : r.overdue = false ∧ r.skip = 0 := by
  obtain ⟨c, -, rfl⟩ := List.mem_map.1 h
  split
  · exact ⟨rfl, rfl⟩
  · next other =>
    rw [if_neg other] at hid
    exact absurd hid other

theorem DesignationEnded.ends {o : Overdue} {i : Arm} {f : List Carrier → List Carrier} {s t : State}
    (h : DesignationEnded o i f s t) (scu : t.scu = s.scu) (closures : t.closures = s.closures) : EndsDesignation o s t :=
  ⟨h.overdue, h.cells, fun r hr => mem_updateRecord_undesignated (by rwa [h.queue, if_pos rfl] at hr), h.due, h.moves, scu, closures⟩

/-- What comes before and touches neither crossing, nor holds, nor closures. -/
theorem EndsDesignation.before {o : Overdue} {s u t : State} (h : EndsDesignation o u t) (xu : u.xu = s.xu) (scu : u.scu = s.scu)
    (closures : u.closures = s.closures) (hld : u.hld = s.hld) : EndsDesignation o s t := by
  have cell : ∀ k, u.cell k = s.cell k := fun k => by rw [State.cell, xu, State.cell]
  exact ⟨h.overdue, fun k => by rw [h.cells, cell], h.records,
    fun grants reserved => h.due ((granting_of_keeps scu hld).trans grants) (by simpa only [cell] using reserved),
    h.moves.trans (congrArg Xu.moves xu), h.scu.trans scu, h.closures.trans closures⟩

/-- What comes behind and touches neither crossing, nor queues, nor designation. -/
theorem EndsDesignation.after {o : Overdue} {s u t : State} (h : EndsDesignation o s u) (xu : t.xu = u.xu) (scu : t.scu = u.scu)
    (closures : t.closures = u.closures) (queues : t.aqu.queues = u.aqu.queues) (overdue : t.jar.overdue = u.jar.overdue)
    (due : u.jar.due = true → t.jar.due = true) : EndsDesignation o s t :=
  ⟨overdue.trans h.overdue, fun k => by rw [State.cell, xu]; exact h.cells k,
    fun r hr => h.records r (by rwa [State.queue, queues] at hr), fun grants reserved => due (h.due grants reserved),
    (congrArg Xu.moves xu).trans h.moves, scu.trans h.scu, closures.trans h.closures⟩

theorem EndsDesignation.finish {o : Overdue} {s u : State} (h : EndsDesignation o s u) (old : State) :
    EndsDesignation o s (State.finish old u) := by
  obtain ⟨scu, aqu, closures, xu, -, -, -, -, -, jar, due, -⟩ := finish_eventEnd old u
  exact h.after xu scu closures (congrArg Aqu.queues aqu) (by rw [jar]) due

theorem EndsDesignation.clearanceDue {o : Overdue} {s u : State} (h : EndsDesignation o s u) (link : Arm) (id : CarrierId) :
    EndsDesignation o s (u.clearanceDue link id) := by
  rw [clearanceDue_eq]
  exact h.after rfl rfl rfl rfl rfl fun due => due

/-- A queue changed so that the designation no longer stands. -/
theorem endsDesignation_onQueue {s : State} {f : List Carrier → List Carrier} {o : Overdue} (ho : s.jar.overdue = some o)
    (falls : ∀ h, (f (s.queue o.arrival)).head? = some h → ¬ (h.id = o.id ∧ h.state = .waiting ∧ h.exit = o.exit)) :
    EndsDesignation o s (s.onQueue o.arrival f) := by
  obtain ⟨scu, closures, -⟩ := onQueue_keeps o.arrival f s
  refine (onQueue_ended ho fun h hh => falls h ?_).ends scu closures
  rwa [if_pos rfl] at hh

theorem removeCarrier_eq (i : Arm) (id : CarrierId) (s : State) : s.removeCarrier i id =
    (((s.withdrawGrant id).onQueue i fun q => q.filter fun c => c.id != id)).dropClearances id := rfl

/-- The designated carrier holds no grant. -/
theorem grantOf_designated {s : State} (grants : GrantLaw s) {i : Arm} {h : Carrier} (head : s.head i = some h)
    (waits : h.state = .waiting) : s.grantOf h.id = none := by
  by_contra some'
  obtain ⟨j, hj⟩ := Option.ne_none_iff_exists'.1 some'
  obtain ⟨m, hm, any⟩ := move_of_grantOf hj
  obtain ⟨e, he, granted⟩ := List.any_eq_true.1 any
  simp only [Entry.grantedTo, Bool.and_eq_true, beq_iff_eq] at granted
  obtain ⟨single, apart, entries, -⟩ := grants
  obtain ⟨c, hc, hid, state, -⟩ := entries j m hm e he granted.2
  have same : c.id = h.id := hid.trans granted.1
  by_cases here : j = i
  · subst here
    have : c = h := List.inj_on_of_nodup_map (single j) hc (mem_queue_of_head head) same
    rw [this, waits] at state
    exact absurd state nofun
  · exact apart j i here c hc h (mem_queue_of_head head) same

end Sys2Proof.Machine

/-! ## What ends a designation -/

namespace Sys2Proof.Machine

/-- The designated carrier is removed from its queue (R33, R85). -/
theorem removeCarrier_ends {s : State} {o : Overdue} {h : Carrier} (grants : GrantLaw s) (ho : s.jar.overdue = some o)
    (head : s.head o.arrival = some h) (hid : h.id = o.id) (waits : h.state = .waiting) :
    EndsDesignation o s (s.removeCarrier o.arrival o.id) := by
  have none' : s.grantOf o.id = none := hid ▸ grantOf_designated grants head waits
  rw [removeCarrier_eq, withdrawGrant_none none']
  refine (endsDesignation_onQueue ho fun r hr ⟨hid', _⟩ => ?_).after rfl rfl rfl rfl rfl fun due => due
  have kept := List.of_mem_filter (List.mem_of_mem_head? (Option.mem_def.2 hr))
  simp [hid'] at kept

/-- The record of the designated carrier changes so that the designation no longer stands by it (R85). -/
theorem onRecord_ends {s : State} {o : Overdue} {h : Carrier} {f : Carrier → Carrier} (ho : s.jar.overdue = some o)
    (head : s.head o.arrival = some h) (hid : h.id = o.id) (falls : ¬ ((f h).state = .waiting ∧ (f h).exit = o.exit)) :
    EndsDesignation o s (s.onRecord o.arrival o.id f) := by
  refine endsDesignation_onQueue ho fun r hr ⟨_, rest⟩ => falls ?_
  rw [head_updateRecord, ← State.head, head, Option.map_some, Option.some.injEq, if_pos hid] at hr
  exact hr ▸ rest

/-- A message for the record of carrier `id` on the arm of the designation has changed the queue: no overrun is found where the
record is not committed. -/
theorem overrunCheck_uncommitted {s : State} {i : Arm} {id : CarrierId} {f : List Carrier → List Carrier} {u : State}
    (law : QueueLaw u) (cfg : u.cfg = s.cfg) (calm : ∀ r, (f (u.queue i)).find? (fun c => c.id == id) = some r → r.committed s.cfg = false) :
    ((u.onQueue i f).clearanceDue i id).overrunCheck i id = (u.onQueue i f).clearanceDue i id := by
  refine overrunCheck_idle (.inl fun d hd => ?_)
  by_cases hid : d.id = id
  · right; right
    have found : (u.onQueue i f).recordOn i id = some d := by
      rw [clearanceDue_eq] at hd
      obtain ⟨rest, hq⟩ := List.head?_eq_some_iff.1 (show ((u.onQueue i f).queue i).head? = some d from hd)
      rw [State.recordOn, hq, List.find?_cons_of_pos (by simp [hid])]
    have cfg' : ((u.onQueue i f).clearanceDue i id).cfg = s.cfg := by
      rw [← cfg, State.cfg, (clearanceDue_keeps _ _ _).1, (onQueue_keeps _ _ _).1, State.cfg]
    rw [cfg']
    rcases (onQueue_queues law i f).2 with e | ⟨o, -, -, e⟩
    · rw [State.recordOn, e] at found
      exact calm d found
    · rw [State.recordOn, e, find_updateRecord_any (g := Carrier.undesignated) (fun _ => rfl)] at found
      obtain ⟨c, hc, rfl⟩ := Option.map_eq_some_iff.1 found
      have := calm c hc
      split
      · exact this
      · exact this
  · exact .inl hid

theorem noRoute_of_open {s : State} {i exit : Arm} (away : exit ≠ i) (outbound : s.outbound exit = true)
    (permitted : (s.path i exit).permitted = true) : ¬ s.noRoute i exit = true := by
  rw [noRoute_iff]
  simp [away, outbound, permitted]

/-- A re-announce of the designated carrier for another exit (R28, R85). -/
theorem reannounce_ends {s : State} {o : Overdue} {h : Carrier} {q : Request} (law : QueueLaw s) (ho : s.jar.overdue = some o)
    (head : s.head o.arrival = some h) (hid : h.id = o.id) (waits : h.state = .waiting) (other : q.exit ≠ o.exit)
    (short : ¬ 400 < q.length) (route : ¬ s.noRoute o.arrival q.exit = true) (free : committed s.cfg q.cls q.distance q.speed = false) :
    EndsDesignation o s (s.handleAnnounce o.arrival o.id q) := by
  have found : s.recordOn o.arrival o.id = some h := by
    obtain ⟨rest, hq⟩ := List.head?_eq_some_iff.1 (show (s.queue o.arrival).head? = some h from head)
    rw [State.recordOn, hq, List.find?_cons_of_pos (by simp [hid])]
  rw [handleAnnounce_queued found, reannounce_accepted short route (by rw [waits]; exact nofun), hid]
  unfold State.acceptReannounce
  rw [State.onRecord, overrunCheck_uncommitted law rfl]
  · exact (onRecord_ends ho head hid fun ⟨_, same⟩ => other same).clearanceDue _ _
  · intro r hr
    rw [find_updateRecord o.id (fun c => (Carrier.retake q c).heard.wake) (fun _ => rfl), ← State.recordOn, found] at hr
    obtain rfl := Option.some.inj hr
    exact free

/-- A new ANNOUNCE in front of the designated carrier (R27, R85). -/
theorem announceNew_ends {s : State} {o : Overdue} {h : Carrier} {id : CarrierId} {q : Request} (law : QueueLaw s)
    (ho : s.jar.overdue = some o) (head : s.head o.arrival = some h) (hid : h.id = o.id) (waits : h.state = .waiting)
    (new : ∀ r ∈ s.queue o.arrival, r.id ≠ id) (accepted : s.announceRefusal o.arrival id q = none) (nearer : q.distance < h.distance)
    (free : committed s.cfg q.cls q.distance q.speed = false) :
    EndsDesignation o s (s.handleAnnounce o.arrival id q) := by
  rw [handleAnnounce_new new]
  unfold State.announceNew
  rw [accepted]
  dsimp only
  rw [overrunCheck_uncommitted law rfl]
  · refine (endsDesignation_onQueue ho fun r hr ⟨hid', _⟩ => ?_).clearanceDue _ _
    obtain ⟨rest, hq⟩ := List.head?_eq_some_iff.1 (show (s.queue o.arrival).head? = some h from head)
    have front : insertRecord (newRecord o.arrival id q) (h :: rest) = newRecord o.arrival id q :: h :: rest := by
      rw [insertRecord, if_neg]
      rintro (granted | near)
      · rw [waits] at granted
        exact absurd granted nofun
      · exact absurd nearer (Nat.not_lt.2 near)
    rw [hq, front, List.head?_cons, Option.some.injEq] at hr
    subst hr
    exact new h (mem_queue_of_head head) (hid.trans hid'.symm)
  · intro r hr
    have first := (find_insertRecord (c := newRecord o.arrival id q) new).symm.trans hr
    obtain rfl := Option.some.inj first
    exact free

theorem purge_ok {s : State} {id : CarrierId} {i : Arm} (some' : id ≠ 0) (queued : s.queuedOn id = some i) :
    s.purge (id.setWidth 16) = .ok (s.removeCarrier i id) := by
  have narrow : (id.setWidth 16 : Half).setWidth 12 = id := by
    apply BitVec.eq_of_toNat_eq
    have := id.isLt
    simp only [BitVec.toNat_setWidth]
    omega
  have low : (id.setWidth 16 : Half).toNat = id.toNat := by
    have := id.isLt
    rw [BitVec.toNat_setWidth]
    exact Nat.mod_eq_of_lt (by omega)
  have positive : id.toNat ≠ 0 := fun e => some' (BitVec.eq_of_toNat_eq e)
  unfold State.purge
  rw [low, if_neg (by have := id.isLt; omega), narrow, queued]

theorem does_purge {s : State} {id : CarrierId} {i : Arm} (released : s.scu.rstHeld = false) (working : s.part.working = true)
    (some' : id ≠ 0) (queued : s.queuedOn id = some i) :
    Does (.purgeCarrier (id.setWidth 16)) s ((s.removeCarrier i id).answered (.ok 0x15)) := by
  have does : Does (.purgeCarrier (id.setWidth 16)) s _ :=
    does_act (owner := State.purge (id.setWidth 16)) released working rfl
  rwa [purge_ok some' queued, settle_ok] at does

theorem does_withdraw {s : State} {link i : Arm} {id : CarrierId} (released : s.scu.rstHeld = false)
    (part : s.part = .recovering ∨ s.part = .running) (present : s.present link = true) (queued : s.queuedOn id = some i) :
    Does (.withdraw link id) s ((s.huntLink link).removeCarrier i id) := by
  have does := exec_withdraw (id := id) released part present
  unfold State.handleWithdraw at does
  rwa [show (s.huntLink link).queuedOn id = some i from queued] at does

theorem working_of_handling {s : State} (part : s.part = .recovering ∨ s.part = .running) : s.part.working = true := by
  rcases part with e | e <;> rw [e] <;> rfl

/-- The queue of a carrier on which GrantLaw finds it. -/
theorem queuedOn_of_mem {s : State} (grants : GrantLaw s) {i : Arm} {c : Carrier} (hc : c ∈ s.queue i) :
    s.queuedOn c.id = some i := by
  obtain ⟨j, hj⟩ := Option.isSome_iff_exists.1 (queuedOn_isSome.2 ⟨i, c, hc, rfl⟩)
  have here := List.find?_some hj
  obtain ⟨d, hd⟩ := Option.isSome_iff_exists.1 here
  obtain ⟨mem, hid⟩ := recordOn_some hd
  by_cases e : j = i
  · rw [hj, e]
  · exact absurd hid (grants.2.1 j i e d mem c hc)

/-- Settles O29. -/
theorem skipCountsAndDesignation : Obligations.SkipCountsAndDesignation := by
  refine ⟨fun s id single => ?_, fun s => ⟨fun none' => ?_, fun c clear found => ?_⟩, fun s o ho => endOverdue_eq ho,
    fun s o h c released law grants ho head part cases => ?_⟩
  · rw [State.afterGrant, raiseSkips_eq single]
    rfl
  · unfold State.seekOverdue
    cases ho : s.jar.overdue with
    | some o => rfl
    | none =>
      have found : s.headsInOrder.find? s.designable = none := none'.resolve_left (by simp [ho])
      rw [found]
  · unfold State.seekOverdue
    rw [clear, show s.headsInOrder.find? s.designable = some c from found]
    exact designate_eq c s
  obtain ⟨h', head', hid, waits, exit⟩ := law.2 o ho
  obtain rfl : h' = h := Option.some.inj (head'.symm.trans head)
  have mem := mem_queue_of_head head
  have queued : s.queuedOn o.id = some o.arrival := hid ▸ queuedOn_of_mem grants mem
  have working := working_of_handling part
  suffices ∃ t, exec c s = .next t ∧ EndsDesignation o s t by
    obtain ⟨t, does, ends⟩ := this
    exact ⟨t, does, ends.overdue, ends.cells, ends.records, ends.due, ends.moves, ends.scu, ends.closures⟩
  rcases cases with ⟨rfl, some'⟩ | ⟨rfl, hears⟩ | ⟨link, rfl, present⟩ | ⟨id, cls, p, exit', length, d, v, rfl, present, free, kind⟩
  · refine ⟨_, does_purge released working some' queued, EndsDesignation.finish ?_ s⟩
    exact (removeCarrier_ends grants ho head hid waits).after rfl rfl rfl rfl rfl fun due => due
  · have record : s.recordOn o.arrival o.id = some h' := hid ▸ recordOn_of_mem grants mem
    have does := exec_carrierMute released queued record
    rw [if_neg (by simp [hears])] at does
    refine ⟨_, does, EndsDesignation.finish ?_ s⟩
    refine (onRecord_ends ho head hid ?_).after rfl rfl rfl rfl rfl fun due => due
    simp [Carrier.fallSilent, waits]
  · refine ⟨_, does_withdraw released part present queued, EndsDesignation.finish ?_ s⟩
    exact (removeCarrier_ends (s := s.huntLink link) grants ho head hid waits).before rfl rfl rfl rfl
  · refine ⟨_, exec_announce released part present, EndsDesignation.finish ?_ s⟩
    have law' : QueueLaw (s.huntLink o.arrival) := law
    rcases kind with ⟨rfl, other, short, away, outbound, permitted⟩ | ⟨new, accepted, nearer⟩
    · have route : ¬ (s.huntLink o.arrival).noRoute o.arrival exit' = true :=
        noRoute_of_open (s := s.huntLink o.arrival) away (by exact outbound) (by exact permitted)
      exact (reannounce_ends (s := s.huntLink o.arrival) (q := requestOf cls p exit' length d v) law' ho head hid waits other
        (Nat.not_lt.2 short) route free).before rfl rfl rfl rfl
    · refine (announceNew_ends (s := s.huntLink o.arrival) (q := requestOf cls p exit' length d v) law' ho head hid waits new ?_ nearer free).before rfl rfl rfl rfl
      rw [announceRefusal_eq _ _ _ _ (length := length) rfl]
      exact accepted

end Sys2Proof.Machine

/-! ## A carrier removed from its queue -/

namespace Sys2Proof.Machine

/-- What comes behind a reservation released and changes neither its end nor the flags. -/
theorem Released.after {i : Arm} {s t u : State} (h : Released i s t) (r : (u.seg i).r = (t.seg i).r)
    (occ : (u.seg i).occ = (t.seg i).occ) (unsure : (u.seg i).unsure = (t.seg i).unsure)
    (flag : u.flagged .countInconsistent = t.flagged .countInconsistent) : Released i s u := by
  obtain ⟨r', tested, same⟩ := h
  exact ⟨r.trans r', fun some' => (tested some').after occ unsure flag, fun none' =>
    ⟨occ.trans (same none').1, unsure.trans (same none').2.1, flag.trans (same none').2.2⟩⟩

/-- What comes before a reservation is released and changes neither segment ends, nor configuration, nor flags. -/
theorem Released.before {i : Arm} {s t u : State} (h : Released i s t) (scu : s.scu = u.scu) (segs : s.segs = u.segs)
    (mtp : s.mtp = u.mtp) : Released i u t := by
  have seg : s.seg i = u.seg i := by rw [State.seg, segs, State.seg]
  have flag : s.flagged .countInconsistent = u.flagged .countInconsistent := by rw [State.flagged, mtp, State.flagged]
  obtain ⟨r, tested, same⟩ := h
  rw [seg] at r tested same
  exact ⟨r, fun some' => (tested some').before (congrArg Scu.cfg scu) (by rw [seg]) (by rw [seg]) flag, fun none' =>
    ⟨(same none').1, (same none').2.1, (same none').2.2.trans flag⟩⟩

theorem withdrawGrant_released {s : State} {id : CarrierId} {i : Arm} {m : Movement} (h : s.grantOf id = some i)
    (hm : s.move i = some m) : Released m.exit s (s.withdrawGrant id) := by
  unfold State.withdrawGrant
  rw [h]
  dsimp only
  rw [hm]
  dsimp only
  have released := (releaseReservation_released m.exit (s.setMove i (some { m with carriers := dropGranted id m.carriers }))).before
    (u := s) rfl rfl rfl
  split
  · obtain ⟨-, -, -, segs, -, -, -, mtp, -⟩ := endMovement_keeps i m.exit
      ((s.setMove i (some { m with carriers := dropGranted id m.carriers })).releaseReservation m.exit)
    refine released.after ?_ ?_ ?_ ?_
    · rw [State.seg, segs, State.seg]
    · rw [State.seg, segs, State.seg]
    · rw [State.seg, segs, State.seg]
    · rw [State.flagged, mtp, State.flagged]
  · exact released

/-- A carrier that the designation is not for may leave its queue. -/
theorem DesignationSpares.sparedBy_filter {s : State} {i : Arm} {id : CarrierId} (h : DesignationSpares s i id) :
    s.sparedBy i ((s.queue i).filter fun c => c.id != id) := fun o ho => by
  obtain ⟨hd, hhd, hid, rest⟩ := h.1.2 o ho
  split
  · next e =>
    subst e
    refine ⟨hd, ?_, hid, rest⟩
    obtain ⟨l, hq⟩ := List.head?_eq_some_iff.1 (show (s.queue o.arrival).head? = some hd from hhd)
    have other : hd.id ≠ id := fun e => h.2 o ho rfl (hid ▸ e)
    rw [hq, List.filter_cons_of_pos (by simpa using other), List.head?_cons]
  · exact ⟨hd, hhd, hid, rest⟩

/-- From `s` to `t` carrier `id` has left the queue of arm `i` with its grant, and the designation stands (R33). -/
structure CarrierRemoved (i : Arm) (id : CarrierId) (s t : State) : Prop where
  queue : t.queue i = (s.queue i).filter fun r => r.id != id
  queues : ∀ j, j ≠ i → t.queue j = s.queue j
  sends : ∀ j, t.aqu.sends.get j = (s.aqu.sends.get j).filter fun it => it != .clearance id
  ungranted : s.grantOf id = none → t.xu = s.xu ∧ t.wkp = s.wkp ∧ t.mtp.flags = s.mtp.flags
  granted : ∀ k m, s.grantOf id = some k → s.move k = some m →
    t.move k = (if dropGranted id m.carriers = [] then none else some { m with carriers := dropGranted id m.carriers })
    ∧ (∀ j, j ≠ k → t.move j = s.move j) ∧ Released m.exit s t
    ∧ (dropGranted id m.carriers ≠ [] → t.xu.cells = s.xu.cells)
    ∧ (dropGranted id m.carriers = [] → ∀ l, t.cell l = if l ∈ cellSet k m.exit then s.releasedCell l else s.cell l)
  scu : t.scu = s.scu
  closures : t.closures = s.closures
  unmatched : t.xu.unmatched = s.xu.unmatched
  nbrs : t.nbrs = s.nbrs
  causes : SameCauses s t

theorem cells_eq_of_cell {s t : State} (h : ∀ k, t.cell k = s.cell k) : t.xu.cells = s.xu.cells :=
  Quad.ext_get h

theorem removeCarrier_removes {i : Arm} {id : CarrierId} {s : State} (spares : DesignationSpares s i id) :
    CarrierRemoved i id s (s.removeCarrier i id) := by
  rw [removeCarrier_eq]
  obtain ⟨wscu, waqu, wclosures, wnbrs, -, whld, -⟩ := withdrawGrant_keeps id s
  have spared : (s.withdrawGrant id).sparedBy i (((s.withdrawGrant id).queue i).filter fun c => c.id != id) :=
    (spares.of_keeps (congrArg Aqu.queues waqu) (withdrawGrant_overdue id s)).sparedBy_filter
  obtain ⟨-, xu, aqu⟩ := onQueue_spared (f := fun q => q.filter fun c => c.id != id) spared
  obtain ⟨scu, closures, nbrs, -, wkp, hld, mtp, -⟩ := onQueue_keeps i (fun q => q.filter fun c => c.id != id) (s.withdrawGrant id)
  have counts := fun j => onQueue_counts i j (fun q => q.filter fun c => c.id != id) (s.withdrawGrant id)
  generalize (s.withdrawGrant id).onQueue i (fun q => q.filter fun c => c.id != id) = u at *
  have queue : ∀ j, u.queue j = if i = j then (s.queue i).filter fun r => r.id != id else s.queue j := fun j => by
    rw [queue_of_set (congrArg Aqu.queues aqu) j, State.queue, State.queue, waqu]
    rfl
  refine
    { queue := (queue i).trans (if_pos rfl), queues := fun j hj => (queue j).trans (if_neg (Ne.symm hj)), sends := fun j => ?_
      ungranted := fun none' => ?_, granted := fun k m hk hm => ?_, scu := scu.trans wscu, closures := closures.trans wclosures
      unmatched := ?_, nbrs := nbrs.trans wnbrs, causes := ?_ }
  · show (u.aqu.sends.map _).get j = _
    rw [Quad.get_map, aqu, waqu]
  · rw [withdrawGrant_none none'] at xu wkp mtp
    exact ⟨xu, wkp, congrArg Mtp.flags mtp⟩
  · obtain ⟨moves, cells, -⟩ := withdrawGrant_does hk hm
    have move : ∀ j, (u.dropClearances id).move j = (s.withdrawGrant id).move j := fun j => by
      rw [State.move, show (u.dropClearances id).xu = u.xu from rfl, xu, State.move]
    have cell : ∀ l, (u.dropClearances id).cell l = (s.withdrawGrant id).cell l := fun l => by
      rw [State.cell, show (u.dropClearances id).xu = u.xu from rfl, xu, State.cell]
    refine ⟨by rw [move, moves, if_pos rfl], fun j hj => by rw [move, moves, if_neg (Ne.symm hj)], ?_, fun rest => ?_,
      fun rest l => ?_⟩
    · obtain ⟨-, -, r, occ, unsure⟩ := counts m.exit
      refine (withdrawGrant_released hk hm).after r occ unsure ?_
      show u.flagged _ = _
      rw [State.flagged, mtp, State.flagged]
    · refine cells_eq_of_cell fun l => ?_
      rw [cell, cells, if_neg fun h => rest h.1]
    · rw [cell, cells]
      simp only [rest, true_and]
  · show u.xu.unmatched = _
    rw [xu]
    cases found : s.grantOf id with
    | none => rw [withdrawGrant_none found]
    | some k =>
      obtain ⟨m, hm, -⟩ := move_of_grantOf found
      obtain ⟨-, -, -, -, unmatched, -⟩ := withdrawGrant_does found hm
      exact unmatched
  · have same : u.hld = s.hld := hld.trans whld
    exact ⟨congrArg Hld.overrun same, congrArg Hld.unauthorised same, congrArg Hld.operator same⟩

theorem CarrierRemoved.finish {i : Arm} {id : CarrierId} {s t : State} (h : CarrierRemoved i id s t) (old : State) :
    CarrierRemoved i id s (State.finish old t) := by
  obtain ⟨scu, aqu, closures, xu, nbrs, wkp, mtp, -⟩ := finish_keeps old t
  obtain ⟨-, -, -, -, -, overrun, unauthorised, operator⟩ := finish_causes old t
  have queue : ∀ j, (State.finish old t).queue j = t.queue j := fun j => by rw [State.queue, aqu, State.queue]
  have move : ∀ j, (State.finish old t).move j = t.move j := fun j => by rw [State.move, xu, State.move]
  have cell : ∀ j, (State.finish old t).cell j = t.cell j := fun j => by rw [State.cell, xu, State.cell]
  refine
    { queue := (queue i).trans h.queue, queues := fun j hj => (queue j).trans (h.queues j hj)
      sends := fun j => by rw [aqu]; exact h.sends j, ungranted := fun none' => by rw [xu, wkp, mtp]; exact h.ungranted none'
      granted := fun k m hk hm => ?_, scu := scu.trans h.scu, closures := closures.trans h.closures
      unmatched := by rw [xu]; exact h.unmatched, nbrs := nbrs.trans h.nbrs
      causes := ⟨overrun.trans h.causes.1, unauthorised.trans h.causes.2.1, operator.trans h.causes.2.2⟩ }
  obtain ⟨moved, others, released, kept, emptied⟩ := h.granted k m hk hm
  refine ⟨(move k).trans moved, fun j hj => (move j).trans (others j hj), ?_, fun rest => by rw [xu]; exact kept rest,
    fun rest l => (cell l).trans (emptied rest l)⟩
  have seg := finish_seg old t m.exit
  refine released.after (by rw [seg]) (by rw [seg]) (by rw [seg]) ?_
  rw [State.flagged, mtp, State.flagged]

theorem CarrierRemoved.answered {i : Arm} {id : CarrierId} {s t : State} (h : CarrierRemoved i id s t) (r : Response) :
    CarrierRemoved i id s (t.answered r) :=
  { queue := h.queue, queues := h.queues, sends := h.sends, ungranted := h.ungranted, granted := h.granted, scu := h.scu
    closures := h.closures, unmatched := h.unmatched, nbrs := h.nbrs, causes := h.causes }

/-- The message of a link is removed before. -/
theorem CarrierRemoved.huntLink {i link : Arm} {id : CarrierId} {s t : State} (h : CarrierRemoved i id (s.huntLink link) t) :
    CarrierRemoved i id s t :=
  { queue := h.queue, queues := h.queues, sends := h.sends, ungranted := h.ungranted, granted := h.granted, scu := h.scu
    closures := h.closures, unmatched := h.unmatched, nbrs := h.nbrs, causes := h.causes }

/-- PURGE CARRIER is refused for an ID of 0, above 4095, or not queued (R33, R173). -/
theorem does_purge_refused {s : State} {big : Half} (released : s.scu.rstHeld = false) (working : s.part.working = true)
    (bad : big = 0 ∨ 4095 < big.toNat ∨ s.queuedOn (big.setWidth 12) = none) :
    Does (.purgeCarrier big) s (s.answered (.refused 0x15 .badArgument)) := by
  have does : Does (.purgeCarrier big) s _ := does_act (owner := State.purge big) released working rfl
  have refuses : s.purge big = .refused .badArgument s := by
    unfold State.purge
    by_cases range : big.toNat = 0 ∨ 4095 < big.toNat
    · exact if_pos range
    · rw [if_neg range]
      rcases bad with rfl | e | e
      · exact absurd (.inl rfl) range
      · exact absurd (.inr e) range
      · rw [e]
  rwa [refuses] at does

/-- Settles O20. -/
theorem withdrawAndPurge : Obligations.WithdrawAndPurge := by
  intro link i id s released
  refine ⟨fun queued spares c kind => ?_, fun big working bad => does_purge_refused released working bad⟩
  suffices ∃ t, exec c s = .next t ∧ CarrierRemoved i id s t
      ∧ (c = .purgeCarrier (id.setWidth 16) → t.mtp.buffer = .busy (.ok 0x15)) by
    obtain ⟨t, does, done, answer⟩ := this
    exact ⟨t, does, done.queue, done.queues, done.sends, done.ungranted, done.granted, done.scu, done.closures, done.unmatched,
      done.nbrs, done.causes, answer⟩
  rcases kind with ⟨rfl, present, part⟩ | ⟨rfl, some', working⟩
  · exact ⟨_, does_withdraw released part present queued, ((removeCarrier_removes (spares_huntLink spares)).huntLink).finish s, nofun⟩
  · refine ⟨_, does_purge released working some' queued, ((removeCarrier_removes spares).answered _).finish s, fun _ => ?_⟩
    rw [(finish_keeps _ _).2.2.2.2.2.2.1]
    rfl

end Sys2Proof.Machine

/-! ## The round -/

namespace Sys2Proof.Machine

/-- From `s` to `t` no switch of the arbiter has turned. -/
def SwitchesStay (s t : State) : Prop := t.jar = { s.jar with overdue := t.jar.overdue, due := t.jar.due }

theorem SwitchesStay.of_jar {s t : State} (h : t.jar = s.jar) : SwitchesStay s t := by
  rw [SwitchesStay, h]

theorem SwitchesStay.trans {s t u : State} (h : SwitchesStay s t) (h' : SwitchesStay t u) : SwitchesStay s u := by
  unfold SwitchesStay at *
  rw [h', h]

theorem switchesStay_trigger (s : State) : SwitchesStay s s.trigger := by
  rw [trigger_eq]
  rfl

theorem switchesStay_endOverdue (s : State) : SwitchesStay s s.endOverdue := by
  cases ho : s.jar.overdue with
  | none => exact .of_jar (by rw [State.endOverdue, ho])
  | some o =>
    rw [endOverdue_eq ho]
    rfl

theorem switchesStay_onQueue (i : Arm) (f : List Carrier → List Carrier) (s : State) : SwitchesStay s (s.onQueue i f) := by
  have check (u : State) : SwitchesStay u u.checkOverdue := by
    unfold State.checkOverdue
    split
    · exact .of_jar rfl
    · split
      · exact .of_jar rfl
      · exact switchesStay_endOverdue u
  have put : SwitchesStay s (State.noteDemand s (s.putQueue i (f (s.queue i)))) := .of_jar (by simp)
  unfold State.onQueue
  dsimp only
  split
  · exact (put.trans (switchesStay_trigger _)).trans (check _)
  · exact put.trans (check _)

theorem switchesStay_finishGrant (c : Carrier) (s : State) : SwitchesStay s (s.finishGrant c) := by
  rw [finishGrant_eq]
  exact ((SwitchesStay.of_jar (takeReservation_keeps c.exit s).2.2.2.2.1).trans (switchesStay_onQueue _ _ _)).trans
    (.of_jar (clearanceDue_keeps _ _ _).2.2.2.1)

/-- JAR's search for a new overdue carrier changes no movement record, reserves FREE cells alone, and turns no switch (R83). -/
theorem seekOverdue_crossing (s : State) : s.seekOverdue.xu.moves = s.xu.moves
    ∧ s.seekOverdue.xu.unmatched = s.xu.unmatched ∧ (∀ k, s.cell k ≠ .free → s.seekOverdue.cell k = s.cell k)
    ∧ SwitchesStay s s.seekOverdue := by
  unfold State.seekOverdue
  split
  · exact ⟨rfl, rfl, fun _ _ => rfl, .of_jar rfl⟩
  · split
    · exact ⟨rfl, rfl, fun _ _ => rfl, .of_jar rfl⟩
    · next c _ =>
      rw [designate_eq]
      refine ⟨rfl, rfl, fun k busy => ?_, rfl⟩
      show (Quad.build fun k => if k ∈ cellSet c.arrival c.exit ∧ s.cell k = .free then .reserved c.id else s.cell k).get k = _
      rw [Quad.get_build, if_neg fun h => busy h.2]

/-- What follows a grant changes no movement record, and makes a round due (R75, R82, R83). -/
theorem afterGrant_crossing (id : CarrierId) (s : State) : (s.afterGrant id).xu.moves = s.xu.moves
    ∧ (s.afterGrant id).xu.unmatched = s.xu.unmatched ∧ (∀ k, s.cell k ≠ .free → (s.afterGrant id).cell k = s.cell k)
    ∧ SwitchesStay s (s.afterGrant id) ∧ (s.granting = true → (s.afterGrant id).jar.due = true) := by
  obtain ⟨scu, -, xu, jar, -, -, -, -, hld, -⟩ := raiseSkips_keeps id s
  obtain ⟨moves, unmatched, cells, switches⟩ := seekOverdue_crossing (s.raiseSkips id)
  obtain ⟨scu', -, -, -, -, -, hld', -⟩ := seekOverdue_keeps (s.raiseSkips id)
  have cell : ∀ k, (s.raiseSkips id).cell k = s.cell k := fun k => by rw [State.cell, xu, State.cell]
  unfold State.afterGrant
  refine ⟨?_, ?_, fun k busy => ?_, ((SwitchesStay.of_jar jar).trans switches).trans (switchesStay_trigger _), fun grants => ?_⟩
  · rw [trigger_eq]
    exact moves.trans (congrArg Xu.moves xu)
  · rw [trigger_eq]
    exact unmatched.trans (congrArg Xu.unmatched xu)
  · rw [trigger_eq]
    exact (cells k (by rwa [cell])).trans (cell k)
  · rw [(trigger_jar _).2.2.2.2.2, granting_of_keeps (scu'.trans scu) (hld'.trans hld), grants, Bool.or_true]

/-! ### At most one record -/

/-- No movement record of `t` is new. -/
def NoNewRecord (s t : State) : Prop := ∀ i, s.move i = none → t.move i = none

theorem NoNewRecord.of_moves {s t : State} (h : t.xu.moves = s.xu.moves) : NoNewRecord s t := fun i none' => by
  rw [State.move, h]
  exact none'

theorem noNewRecord_testOverdueExit (s : State) : NoNewRecord s s.testOverdueExit := by
  unfold State.testOverdueExit
  repeat' split
  · exact fun _ h => h
  · exact fun _ h => h
  · exact .of_moves (endOverdue_does s).2.2.2.1

theorem noNewRecord_executeFollowOn (c : Carrier) (s : State) : NoNewRecord s (s.executeFollowOn c) := by
  intro i none'
  cases move : s.move c.arrival with
  | none =>
    unfold State.executeFollowOn
    rwa [move]
  | some m =>
    rw [executeFollowOn_eq move]
    split
    · rw [State.move, (sameHeld_finishGrant c _).1, ← State.move, move_setMove, if_neg, none']
      rintro rfl
      rw [none'] at move
      cases move
    · exact none'

theorem noNewRecord_followOnTest (s : State) (i : Arm) : NoNewRecord s (s.followOnTest i) := by
  unfold State.followOnTest
  split
  · exact fun _ h => h
  · exact fun _ h => h
  · split
    · exact fun j none' => NoNewRecord.of_moves (afterGrant_crossing _ _).1 j (noNewRecord_executeFollowOn _ _ j none')
    · exact fun _ h => h

/-- The stages of a round before the grant. -/
def State.roundBegun (s : State) : State :=
  let admitted := State.testOverdueExit { s with jar := { s.jar with due := false } }
  admitted.jar.armOrder.foldl State.followOnTest admitted

theorem round_eq (s : State) : s.round = s.roundBegun.grantCandidate := rfl

theorem noNewRecord_roundBegun (s : State) : NoNewRecord s s.roundBegun := by
  intro i none'
  unfold State.roundBegun
  refine List.foldlRecOn (motive := fun u : State => u.move i = none) _ _ ?_ fun u hu j _ => noNewRecord_followOnTest u j i hu
  exact noNewRecord_testOverdueExit { s with jar := { s.jar with due := false } } i none'

theorem grantCandidate_none {s : State} (h : s.candidates.find? s.eligible = none) : s.grantCandidate = s := by
  unfold State.grantCandidate
  rw [h]

theorem turnAway_eq (c : Carrier) (j : Jar) : j.turnAway c = { j with
    s1 := if c.priority then .normal else .priority
    s2 := if c.arrival = 0 ∨ c.arrival = 1 then .arms23 else .arms01
    s3 := if c.arrival = 0 then .upper else if c.arrival = 1 then .lower else j.s3
    s4 := if c.arrival = 2 then .upper else if c.arrival = 3 then .lower else j.s4 } := by
  unfold Jar.turnAway
  generalize c.arrival = i
  match i with
  | 0 | 1 | 2 | 3 => rfl

theorem grantCandidate_some {s : State} {c : Carrier} (h : s.candidates.find? s.eligible = some c) :
    s.grantCandidate =
      State.afterGrant c.id { s.executeGrant c false with jar := (s.executeGrant c false).jar.turnAway c } := by
  unfold State.grantCandidate
  rw [h]

/-- A grant creates a record on one arm alone. -/
theorem executeGrant_elsewhere {c : Carrier} {i : Arm} (other : i ≠ c.arrival) (rescue : Bool) (s : State) :
    (s.executeGrant c rescue).move i = s.move i := by
  cases executable : s.grantExecutable c with
  | false => rw [State.executeGrant, if_neg (by simp [executable])]
  | true =>
    rw [executeGrant_eq executable, State.move, (sameHeld_finishGrant c _).1, ← State.move, opened_move, if_neg other]

theorem grantCandidate_creates {s : State} {i : Arm} (none' : s.move i = none) (new : s.grantCandidate.move i ≠ none) :
    ∃ c, s.candidates.find? s.eligible = some c ∧ c.arrival = i := by
  cases found : s.candidates.find? s.eligible with
  | none => exact absurd none' (grantCandidate_none found ▸ new)
  | some c =>
    refine ⟨c, rfl, not_not.1 fun other => new ?_⟩
    rw [grantCandidate_some found, State.move, (afterGrant_crossing _ _).1]
    exact (executeGrant_elsewhere (Ne.symm other) false s).trans none'

theorem round_creates_one {s : State} {i j : Arm} (hi : s.move i = none) (ti : s.round.move i ≠ none)
    (hj : s.move j = none) (tj : s.round.move j ≠ none) : i = j := by
  rw [round_eq] at ti tj
  obtain ⟨c, hc, rfl⟩ := grantCandidate_creates (noNewRecord_roundBegun s i hi) ti
  obtain ⟨d, hd, rfl⟩ := grantCandidate_creates (noNewRecord_roundBegun s j hj) tj
  rw [Option.some.inj (hc.symm.trans hd)]

/-! ### A round on an empty crossing -/

theorem roundBegun_empty {s : State} (none' : s.jar.overdue = none) (empty : ∀ i, s.move i = none) :
    s.roundBegun = { s with jar := { s.jar with due := false } } := by
  have admitted : State.testOverdueExit { s with jar := { s.jar with due := false } }
      = { s with jar := { s.jar with due := false } } := by
    unfold State.testOverdueExit
    rw [show ({ s with jar := { s.jar with due := false } } : State).jar.overdue = none from none']
  unfold State.roundBegun
  rw [admitted]
  refine List.foldlRecOn (motive := fun u : State => u = { s with jar := { s.jar with due := false } }) _ _ rfl fun u hu i _ => ?_
  rw [hu]
  exact followOnTest_none (.inl (empty i))

/-- What a round grants on an empty crossing with no designation, besides what finishes a grant (R76, R81). -/
structure RoundGrants (c : Carrier) (s t : State) : Prop where
  moves : ∀ i, t.move i = if i = c.arrival then some ⟨c.exit, [grantedEntry c], 0, false⟩ else none
  cells : ∀ k ∈ cellSet c.arrival c.exit, t.cell k = .held c.arrival
  s1 : t.jar.s1 = if c.priority then .normal else .priority
  s2 : t.jar.s2 = if c.arrival = 0 ∨ c.arrival = 1 then .arms23 else .arms01
  s3 : t.jar.s3 = if c.arrival = 0 then .upper else if c.arrival = 1 then .lower else s.jar.s3
  s4 : t.jar.s4 = if c.arrival = 2 then .upper else if c.arrival = 3 then .lower else s.jar.s4
  due : t.jar.due = true
  unmatched : t.xu.unmatched = s.xu.unmatched

theorem grantCandidate_grants {s : State} {c : Carrier} (grants : s.granting = true) (none' : s.jar.overdue = none)
    (empty : ∀ i, s.move i = none) (found : s.candidates.find? s.eligible = some c) : RoundGrants c s s.grantCandidate := by
  have eligible : s.eligible c = true := List.find?_some found
  have takable : s.cellsTakable c.arrival c.exit c.id = true := by
    simp only [State.eligible, Bool.and_eq_true] at eligible
    exact eligible.1.2
  have executable : s.grantExecutable c = true :=
    grantExecutable_iff.2 ⟨grants, empty _, cellsTakable_iff.1 takable⟩
  have xu : (s.executeGrant c false).xu = (s.opened c false).xu := by
    rw [executeGrant_eq executable]
    exact (finishGrant_does (s := s.opened c false) none' c).2.1
  have switches : SwitchesStay s (s.executeGrant c false) := by
    rw [executeGrant_eq executable]
    exact switchesStay_finishGrant c (s.opened c false)
  have grants' : (s.executeGrant c false).granting = true := by
    obtain ⟨scu, -, -, -, -, hld, -⟩ := executeGrant_keeps c false s
    rw [granting_of_keeps scu hld, grants]
  rw [grantCandidate_some found, turnAway_eq]
  generalize s.executeGrant c false = u at *
  obtain ⟨moves, unmatched, cells, turned, due⟩ := afterGrant_crossing c.id { u with jar := { u.jar with
    s1 := if c.priority then .normal else .priority
    s2 := if c.arrival = 0 ∨ c.arrival = 1 then .arms23 else .arms01
    s3 := if c.arrival = 0 then .upper else if c.arrival = 1 then .lower else u.jar.s3
    s4 := if c.arrival = 2 then .upper else if c.arrival = 3 then .lower else u.jar.s4 } }
  have held : ∀ k ∈ cellSet c.arrival c.exit, u.cell k = .held c.arrival := fun k hk => by
    rw [State.cell, xu, ← State.cell, opened_cell, if_pos hk]
  refine ⟨fun i => ?_, fun k hk => ?_, ?_, ?_, ?_, ?_, due grants', ?_⟩
  · rw [State.move, moves]
    show u.xu.moves.get i = _
    rw [xu, ← State.move, opened_move, empty]
  · rw [cells k (by
      show u.cell k ≠ _
      rw [held k hk]
      exact nofun)]
    exact held k hk
  · rw [turned]
  · rw [turned]
  · rw [turned, switches]
  · rw [turned, switches]
  · rw [unmatched]
    show u.xu.unmatched = _
    rw [xu]
    rfl

theorem RoundGrants.finish {c : Carrier} {s t : State} (h : RoundGrants c s t) (old : State) :
    RoundGrants c s (State.finish old t) := by
  obtain ⟨-, -, -, xu, -, -, -, -, -, -, due, -⟩ := finish_eventEnd old t
  obtain ⟨-, s1, s2, s3, s4, -⟩ := finish_causes old t
  exact
    { moves := fun i => by rw [State.move, xu]; exact h.moves i, cells := fun k hk => by rw [State.cell, xu]; exact h.cells k hk
      s1 := s1.trans h.s1, s2 := s2.trans h.s2, s3 := s3.trans h.s3, s4 := s4.trans h.s4, due := due h.due
      unmatched := by rw [xu]; exact h.unmatched }

theorem does_round {s : State} (released : s.scu.rstHeld = false) (due : s.jar.due = true) (grants : s.granting = true) :
    Does .arbitrationRound s s.round :=
  exec_event_if (p := fun s => s.jar.due && s.granting) released rfl (by simp [due, grants]) rfl

/-- A round command leaves at most one new record, and nothing at all where no round is due. -/
theorem exec_round (s : State) : ∃ t, exec .arbitrationRound s = .next t
    ∧ (∀ i j, s.move i = none → t.move i ≠ none → s.move j = none → t.move j ≠ none → i = j)
    ∧ (s.jar.due = false → t.xu = s.xu ∧ t.aqu = s.aqu) := by
  refine ⟨_, rfl, ?_⟩
  cases released : s.scu.rstHeld with
  | true =>
    rw [event_of_held released]
    exact ⟨fun i _ hi ti => absurd hi ti, fun _ => ⟨rfl, rfl⟩⟩
  | false =>
    rw [event_of_released released]
    obtain ⟨-, aqu, -, xu, -⟩ := finish_keeps s (if s.jar.due && s.granting then s.round else s)
    refine ⟨fun i j hi ti hj tj => ?_, fun idle => ?_⟩
    · rw [State.move, xu] at ti tj
      split at ti
      · next runs =>
        rw [if_pos runs] at tj
        exact round_creates_one hi ti hj tj
      · exact absurd hi ti
    · rw [xu, aqu, if_neg (by simp [idle])]
      exact ⟨rfl, rfl⟩

/-- Settles O26. -/
theorem roundGrantsTheFirstEligible : Obligations.RoundGrantsTheFirstEligible := by
  refine ⟨fun s released due grants => does_round released due grants, fun s => ⟨fun none' => ?_, fun o ho => ?_,
    grantCandidate_none, fun c found => ?_⟩, exec_round, fun s released due grants none' empty => ?_⟩
  · unfold State.testOverdueExit
    rw [none']
  · unfold State.testOverdueExit
    rw [ho]
  · rw [grantCandidate_some found, turnAway_eq]
  have does := does_round released due grants
  rw [round_eq, roundBegun_empty none' empty] at does
  refine ⟨fun c found => ?_, fun found => ?_⟩
  · have done := (grantCandidate_grants (s := { s with jar := { s.jar with due := false } }) grants none' empty found).finish s
    obtain ⟨scu, closures, nbrs, -, wkp, -⟩ := grantCandidate_keeps { s with jar := { s.jar with due := false } }
    obtain ⟨scu', -, closures', -, nbrs', wkp', -⟩ := finish_keeps s
      (State.grantCandidate { s with jar := { s.jar with due := false } })
    exact ⟨_, does, done.moves, done.cells, done.s1, done.s2, done.s3, done.s4, done.due, scu'.trans scu, closures'.trans closures,
      done.unmatched, nbrs'.trans nbrs, wkp'.trans wkp⟩
  · rwa [grantCandidate_none (s := { s with jar := { s.jar with due := false } }) found] at does

end Sys2Proof.Machine

/-! ## The views during a hold entry

Hold entry withdraws grants, and each withdrawal releases a reservation and tests the view again. A view that has passed the
test passes it with fewer reservations too. -/

namespace Sys2Proof.Machine

/-- From `s` to `t` no count has changed but R, which has not risen, and no view that passed its test has failed one. -/
structure ViewsStay (s t : State) : Prop where
  cfg : t.cfg = s.cfg
  capN : ∀ j, (t.seg j).capN = (s.seg j).capN
  e : ∀ j, (t.seg j).e = (s.seg j).e
  x : ∀ j, (t.seg j).x = (s.seg j).x
  r : ∀ j, (t.seg j).r ≤ (s.seg j).r
  occ : ∀ j, (s.seg j).occ ≤ 15 → (t.seg j).occ = (s.seg j).occ
  unsure : ∀ j, (s.seg j).unsure = true → (t.seg j).unsure = true
  passes : ∀ j, (s.seg j).occ ≤ 15 → ¬ s.viewFails j (s.seg j).occ (s.seg j).r → (t.seg j).unsure = (s.seg j).unsure
  flagged : s.flagged .countInconsistent = true → t.flagged .countInconsistent = true

theorem ViewsStay.of_segs {s t : State} (cfg : t.cfg = s.cfg) (segs : t.segs = s.segs)
    (flagged : t.flagged .countInconsistent = s.flagged .countInconsistent) : ViewsStay s t := by
  have seg : ∀ j, t.seg j = s.seg j := fun j => by rw [State.seg, segs, State.seg]
  exact
    { cfg, capN := fun j => by rw [seg], e := fun j => by rw [seg], x := fun j => by rw [seg], r := fun j => by rw [seg]
      occ := fun j _ => by rw [seg], unsure := fun j h => by rwa [seg], passes := fun j _ _ => by rw [seg]
      flagged := fun h => flagged.trans h }

theorem ViewsStay.refl (s : State) : ViewsStay s s := .of_segs rfl rfl rfl

/-- A view passes the test with fewer reservations too. -/
theorem viewFails_of_fewer {s t : State} {j : Arm} (h : ViewsStay s t) (small : (s.seg j).occ ≤ 15)
    (passes : ¬ s.viewFails j (s.seg j).occ (s.seg j).r) : ¬ t.viewFails j (t.seg j).occ (t.seg j).r := by
  have fewer := h.r j
  unfold State.viewFails at *
  rw [effCapacity_congr h.cfg (h.capN j), role_congr h.cfg, h.occ j small]
  split at passes
  · next far =>
    rw [if_pos far]
    omega
  · next near =>
    rw [if_neg near]
    omega

theorem ViewsStay.trans {s t u : State} (h : ViewsStay s t) (h' : ViewsStay t u) : ViewsStay s u where
  cfg := h'.cfg.trans h.cfg
  capN j := (h'.capN j).trans (h.capN j)
  e j := (h'.e j).trans (h.e j)
  x j := (h'.x j).trans (h.x j)
  r j := (h'.r j).trans (h.r j)
  occ j small := (h'.occ j (h.occ j small ▸ small)).trans (h.occ j small)
  unsure j unsure := h'.unsure j (h.unsure j unsure)
  passes j small passes :=
    (h'.passes j (h.occ j small ▸ small) (viewFails_of_fewer h small passes)).trans (h.passes j small passes)
  flagged flagged := h'.flagged (h.flagged flagged)

/-- What comes before and changes neither configuration, nor segment ends, nor the flag. -/
theorem ViewsStay.before {s t u : State} (h : ViewsStay u t) (cfg : u.cfg = s.cfg) (segs : u.segs = s.segs)
    (flagged : u.flagged .countInconsistent = s.flagged .countInconsistent) : ViewsStay s t :=
  ViewsStay.trans (.of_segs cfg segs flagged) h

theorem viewsStay_evaluate (i : Arm) (s : State) : ViewsStay s (s.evaluate i) := by
  have counts := fun j => evaluate_counts i j s
  exact
    { cfg := by simp [State.cfg], capN := fun j => by simp, e := fun j => (counts j).1, x := fun j => (counts j).2.1
      r := fun j => (counts j).2.2.1.le, occ := fun j _ => (counts j).2.2.2.1
      unsure := fun j unsure => (counts j).2.2.2.2.1.trans unsure, passes := fun j _ _ => (counts j).2.2.2.2.1
      flagged := fun flagged => by rwa [State.flagged, (evaluate_keeps i s).2.2.2.2.2.2.2.2.2.1] }

/-- A reservation is released: the view is tested again, with one reservation less (R93, R96). -/
theorem viewsStay_releaseReservation (i : Arm) (s : State) : ViewsStay s (s.releaseReservation i) := by
  unfold State.releaseReservation
  refine ViewsStay.trans ?_ (viewsStay_evaluate i _)
  split
  · exact .refl s
  next some' =>
  have occ : ((s.modSeg i fun g => { g with r := g.r - 1 }).seg i).occ = (s.seg i).occ := by rw [seg_modSeg_same]
  unfold State.retestView
  rw [occ]
  obtain ⟨view, unsure, flagged⟩ := takeView_modSeg (i := i) (f := fun g => { g with r := g.r - 1 }) (s := s)
    (fun _ => rfl) (fun _ => rfl) (s.seg i).occ
  have other : ∀ j, j ≠ i → ((s.modSeg i fun g => { g with r := g.r - 1 }).takeView i (s.seg i).occ).seg j = s.seg j :=
    fun j hj => by
      rw [takeView_seg, if_neg (Ne.symm hj)]
      exact seg_modSeg_other hj s _
  have here := takeView_counts i i (s.seg i).occ (s.modSeg i fun g => { g with r := g.r - 1 })
  rw [seg_modSeg_same] at here
  obtain ⟨e, x, r, -, -, -, -, -, capN, -⟩ := here
  have cfg : ((s.modSeg i fun g => { g with r := g.r - 1 }).takeView i (s.seg i).occ).cfg = s.cfg := by simp [State.cfg]
  generalize (s.modSeg i fun g => { g with r := g.r - 1 }).takeView i (s.seg i).occ = t at *
  have at_ends {p : SegEnd → SegEnd → Prop} (same : ∀ g, p g g) (changed : p (s.seg i) (t.seg i)) (j : Arm) :
      p (s.seg j) (t.seg j) := by
    by_cases hj : j = i
    · rw [hj]
      exact changed
    · rw [other j hj]
      exact same _
  exact
    { cfg
      capN := at_ends (p := fun g g' => g'.capN = g.capN) (fun _ => rfl) capN
      e := at_ends (p := fun g g' => g'.e = g.e) (fun _ => rfl) e
      x := at_ends (p := fun g g' => g'.x = g.x) (fun _ => rfl) x
      r := at_ends (p := fun g g' => g'.r ≤ g.r) (fun _ => le_rfl) (r.le.trans (Nat.sub_le _ _))
      occ := at_ends (p := fun g g' => g.occ ≤ 15 → g'.occ = g.occ) (fun _ _ => rfl) fun small => by
        rw [view]
        omega
      unsure := at_ends (p := fun g g' => g.unsure = true → g'.unsure = true) (fun _ h => h) fun h => unsure.2 (.inl h)
      passes := fun j small passes => by
        by_cases hj : j = i
        · subst hj
          have still : ¬ s.viewFails j (s.seg j).occ ((s.seg j).r - 1) := by
            unfold State.viewFails at *
            split at passes
            · next far =>
              rw [if_pos far]
              omega
            · next near =>
              rw [if_neg near]
              omega
          rw [Bool.eq_iff_iff, unsure]
          simp [still]
        · rw [other j hj]
      flagged := fun h => flagged.2 (.inl h) }

theorem noteDemand_capN (old s : State) (j : Arm) : ((State.noteDemand old s).seg j).capN = (s.seg j).capN := by
  unfold State.noteDemand
  refine foldl_keeps (fun t : State => (t.seg j).capN) _ (fun t i => ?_) _ _
  split
  · rfl
  · simp

theorem onQueue_capN (i j : Arm) (f : List Carrier → List Carrier) (s : State) :
    ((s.onQueue i f).seg j).capN = (s.seg j).capN := by
  have check (u : State) : (u.checkOverdue).seg j = u.seg j := by simp [State.seg]
  have trigger (u : State) : (u.trigger).seg j = u.seg j := by simp [State.seg]
  unfold State.onQueue
  dsimp only
  rw [check]
  split
  · rw [trigger, noteDemand_capN]
    rfl
  · rw [noteDemand_capN]
    rfl

theorem viewsStay_onQueue (i : Arm) (f : List Carrier → List Carrier) (s : State) : ViewsStay s (s.onQueue i f) := by
  have counts := fun j => onQueue_counts i j f s
  obtain ⟨scu, -, -, -, -, -, mtp, -⟩ := onQueue_keeps i f s
  exact
    { cfg := congrArg Scu.cfg scu, capN := fun j => onQueue_capN i j f s, e := fun j => (counts j).1, x := fun j => (counts j).2.1
      r := fun j => (counts j).2.2.1.le, occ := fun j _ => (counts j).2.2.2.1
      unsure := fun j unsure => (counts j).2.2.2.2.trans unsure, passes := fun j _ _ => (counts j).2.2.2.2
      flagged := fun flagged => by rwa [State.flagged, mtp] }

theorem viewsStay_withdrawGrant (id : CarrierId) (s : State) : ViewsStay s (s.withdrawGrant id) := by
  unfold State.withdrawGrant
  split
  · exact .refl s
  · next i _ =>
    split
    · exact .refl s
    · next m _ =>
      have released := (viewsStay_releaseReservation m.exit
        (s.setMove i (some { m with carriers := dropGranted id m.carriers }))).before (s := s) rfl rfl rfl
      dsimp only
      split
      · refine released.trans ?_
        obtain ⟨scu, -, -, segs, -, -, -, mtp, -⟩ := endMovement_keeps i m.exit
          ((s.setMove i (some { m with carriers := dropGranted id m.carriers })).releaseReservation m.exit)
        exact .of_segs (congrArg Scu.cfg scu) segs (by rw [State.flagged, mtp, State.flagged])
      · exact released

theorem viewsStay_holdGrants (s : State) : ViewsStay s s.holdGrants := by
  unfold State.holdGrants
  refine List.foldlRecOn (motive := ViewsStay s) Arm.list _ (.refl s) fun t ht i _ => ?_
  split
  · exact ht
  · refine List.foldlRecOn (motive := ViewsStay s) _ _ ht fun u hu e _ => ?_
    unfold State.holdEntryGrant
    split
    · exact hu.trans ((viewsStay_withdrawGrant e.id u).trans (viewsStay_onQueue i _ _))
    · exact hu

theorem viewsStay_withdrawAll (s : State) : ViewsStay s s.withdrawAll := by
  refine (viewsStay_holdGrants s).trans ?_
  rw [State.withdrawAll, clearanceAll_eq]
  exact .of_segs rfl rfl rfl

theorem viewsStay_holdFrom (emergency : Bool) (s : State) : ViewsStay s (s.holdFrom emergency) := by
  obtain ⟨scu, -, -, -, -, -, mtp, segs, -⟩ := holdStart_keeps emergency s
  exact (viewsStay_withdrawAll (s.holdStart emergency)).before (congrArg Scu.cfg scu) segs
    (by rw [State.flagged, mtp, State.flagged])

theorem viewsStay_addCause (c : HoldCause) (s : State) : ViewsStay s (s.addCause c) := by
  by_cases part : s.part.holds
  · cases held : s.held with
    | true =>
      rw [addCause_held part held]
      obtain ⟨scu, -, -, -, segs, -, -, -, mtp, -⟩ := addToHold_keeps c s
      exact .of_segs (congrArg Scu.cfg scu) segs (by rw [State.flagged, mtp, State.flagged])
    | false =>
      rw [addCause_first part held]
      exact (viewsStay_holdFrom (s.modHld (Hld.add c)).heldForCarrier (s.modHld (Hld.add c))).before rfl rfl rfl
  · rw [addCause_elsewhere part]
    exact .of_segs rfl rfl rfl

end Sys2Proof.Machine

/-! ## An unauthorised entry -/

namespace Sys2Proof.Machine

/-- What an unauthorised entry does, in RUNNING and elsewhere (R64, R152, R156, R157). -/
structure EntryRaised (s t : State) : Prop where
  flagged : t.flagged .unauthorisedEntry = true
  unmatched : t.xu.unmatched = s.xu.unmatched
  ids : ∀ j, (t.queue j).map Carrier.id = (s.queue j).map Carrier.id
  views : ViewsStay s t
  scu : t.scu = s.scu
  closures : t.closures = s.closures
  nbrs : t.nbrs = s.nbrs
  overrun : t.hld.overrun = s.hld.overrun
  operator : t.hld.operator = s.hld.operator
  cause : s.part = .running → t.hld.unauthorised = true
  kept : s.part ≠ .running → t.hld.unauthorised = s.hld.unauthorised
  closed : s.part = .running → s.heldForCarrier = false → ∀ k, t.cell k ≠ .free ∧ ∀ id, t.cell k ≠ .reserved id
  entered : s.part = .running → s.held = false → t.jar.overdue = none ∧ t.jar.due = false ∧ t.wkp.state = .closed
    ∧ (CrossingLaw s → QueueLaw s → GrantLaw s → GrantsHeld s t)
    ∧ ∀ j, t.aqu.sends.get j = withClearances (s.queue j) (s.aqu.sends.get j)
  calm : s.part ≠ .running ∨ s.held = true → t.segs = s.segs ∧ t.jar = s.jar ∧ t.aqu = s.aqu ∧ t.xu.moves = s.xu.moves
    ∧ t.flagged .countInconsistent = s.flagged .countInconsistent

theorem unauthorisedEntry_elsewhere {s : State} (part : s.part ≠ .running) :
    s.unauthorisedEntry = s.raise .unauthorisedEntry := by
  unfold State.unauthorisedEntry
  exact if_neg (by simpa using show (s.raise .unauthorisedEntry).part ≠ .running from part)

theorem unauthorisedEntry_running {s : State} (running : s.part = .running) :
    s.unauthorisedEntry = (s.raise .unauthorisedEntry).addCause .unauthorised := by
  unfold State.unauthorisedEntry
  exact if_pos (by simpa using show (s.raise .unauthorisedEntry).part = .running from running)

theorem entryRaised_elsewhere {s : State} (part : s.part ≠ .running) : EntryRaised s (s.raise .unauthorisedEntry) :=
  have flagged : (s.raise .unauthorisedEntry).flagged .countInconsistent = s.flagged .countInconsistent := by simp
  { flagged := by simp, unmatched := rfl, ids := fun _ => rfl, views := .of_segs rfl rfl flagged, scu := rfl, closures := rfl
    nbrs := rfl, overrun := rfl, operator := rfl, cause := fun h => absurd h part, kept := fun _ => rfl
    closed := fun h => absurd h part, entered := fun h => absurd h part, calm := fun _ => ⟨rfl, rfl, rfl, rfl, flagged⟩ }

/-- In a hold the cause joins the set; where the hold was for no carrier, the cells become EMERGENCY (R157). -/
theorem entryRaised_held {s : State} (running : s.part = .running) (held : s.held = true) :
    EntryRaised s ((s.raise .unauthorisedEntry).addCause .unauthorised) := by
  have part : (s.raise .unauthorisedEntry).part.holds := .inr (.inr running)
  have again : (s.raise .unauthorisedEntry).addToHold .unauthorised = if s.heldForCarrier
      then (s.raise .unauthorisedEntry).modHld fun h => { h.add .unauthorised with settle := .stopped }
      else ((s.raise .unauthorisedEntry).modHld (Hld.add .unauthorised)).mapCells Cell.toEmergency := rfl
  have raised : (s.raise .unauthorisedEntry).flagged .unauthorisedEntry = true := by simp
  have flagged : (s.raise .unauthorisedEntry).flagged .countInconsistent = s.flagged .countInconsistent := by simp
  have elsewhere {p : Prop} (h : s.part ≠ .running) : p := absurd running h
  have unheld {p : Prop} (h : s.held = false) : p := absurd (held.symm.trans h) (by decide)
  rw [addCause_held part held, again]
  split
  · next carrier =>
    exact
      { flagged := raised, unmatched := rfl, ids := fun _ => rfl, views := .of_segs rfl rfl flagged, scu := rfl, closures := rfl
        nbrs := rfl, overrun := rfl, operator := rfl, cause := fun _ => rfl, kept := elsewhere
        closed := fun _ h => absurd (carrier.symm.trans h) (by decide), entered := fun _ h => unheld h
        calm := fun _ => ⟨rfl, rfl, rfl, rfl, flagged⟩ }
  · exact
      { flagged := raised, unmatched := rfl, ids := fun _ => rfl, views := .of_segs rfl rfl flagged, scu := rfl, closures := rfl
        nbrs := rfl, overrun := rfl, operator := rfl, cause := fun _ => rfl, kept := elsewhere
        closed := fun _ _ k => by
          rw [cell_mapCells]
          exact toEmergency_closed _
        entered := fun _ h => unheld h, calm := fun _ => ⟨rfl, rfl, rfl, rfl, flagged⟩ }

/-- With no hold the junction comes to be held (R156). -/
theorem entryRaised_first {s : State} (running : s.part = .running) (held : s.held = false) :
    EntryRaised s ((s.raise .unauthorisedEntry).addCause .unauthorised) := by
  have does := addCause_first_does (s := s.raise .unauthorisedEntry) (.inr (.inr running)) held .unauthorised
  have carrier : ((s.raise .unauthorisedEntry).modHld (Hld.add .unauthorised)).heldForCarrier = true := by
    simp [State.heldForCarrier, State.modHld, Hld.add]
  rw [carrier] at does
  exact
    { flagged := by
        rw [does.flags .unauthorisedEntry nofun]
        exact (flagged_raise .unauthorisedEntry .unauthorisedEntry s).trans (by simp)
      unmatched := does.unmatched, ids := does.ids
      views := (viewsStay_addCause .unauthorised (s.raise .unauthorisedEntry)).before rfl rfl (by simp)
      scu := does.scu, closures := does.closures, nbrs := does.nbrs, overrun := (congrArg Hld.overrun does.hld).trans rfl
      operator := (congrArg Hld.operator does.hld).trans rfl, cause := fun _ => (congrArg Hld.unauthorised does.hld).trans rfl
      kept := fun h => absurd running h, closed := fun _ _ => does.closed rfl
      entered := fun _ _ => ⟨does.overdue, does.due, congrArg Wkp.state does.wkp, fun hc hq hs =>
        (does.held hc hq hs).of_granted hs hs rfl (fun _ => rfl) (fun _ => rfl) fun _ _ hc _ => hc, does.sends⟩
      calm := fun h => absurd h (by simp [running, held]) }

theorem unauthorisedEntry_raises (s : State) : EntryRaised s s.unauthorisedEntry := by
  by_cases running : s.part = .running
  · rw [unauthorisedEntry_running running]
    cases held : s.held with
    | true => exact entryRaised_held running held
    | false => exact entryRaised_first running held
  · rw [unauthorisedEntry_elsewhere running]
    exact entryRaised_elsewhere running

theorem addUnmatched_unmatched (u : Unmatched) (s : State) : (s.addUnmatched u).xu.unmatched =
    if s.xu.unmatched.length < 4 then s.xu.unmatched ++ [u] else s.xu.unmatched := by
  unfold State.addUnmatched
  split <;> rfl

theorem addUnmatched_crossing (u : Unmatched) (s : State) : (s.addUnmatched u).xu.moves = s.xu.moves
    ∧ (s.addUnmatched u).xu.cells = s.xu.cells := by
  unfold State.addUnmatched
  split <;> exact ⟨rfl, rfl⟩

/-! ### Changes of a filtered level -/

theorem runsFilter_working {s : State} {input : Input} (h : s.part.working = false) : s.runsFilter input = false := by
  simp [State.runsFilter, h]

theorem change_of_active {f : Filter} (h : f.level = true) : f.change = ⟨⟨false, false, .stopped⟩, .stopped, false⟩ := by
  have level : f.input.level = true := h
  rw [Filter.change, if_pos h, Debounce.flip, level]
  rfl

theorem change_of_idle {f : Filter} (h : f.level = false) : f.change = ⟨⟨true, true, .stopped⟩, .running 0, f.stuck⟩ := by
  have level : f.input.level = false := h
  rw [Filter.change, if_neg (by simp [h]), Debounce.flip, level]
  rfl

theorem does_ignoredChange {s : State} {input : Input} (released : s.scu.rstHeld = false) (idle : s.runsFilter input = false) :
    Does (.detectorFilterChange input) s s := by
  show Host.Outcome.next (s.event _) = _
  rw [event_of_released released, if_neg (by simp [idle])]

theorem does_changeEnt {s : State} {i : Arm} (released : s.scu.rstHeld = false) (working : s.part.working = true)
    (present : s.present i = true) : Does (.detectorFilterChange (.ent i)) s (s.changeEnt i) :=
  exec_event_if (p := fun s => s.runsFilter (.ent i)) released rfl (by simp [State.runsFilter, working, present]) rfl

theorem does_changeExt {s : State} {j : Arm} (released : s.scu.rstHeld = false) (working : s.part.working = true)
    (present : s.present j = true) : Does (.detectorFilterChange (.ext j)) s (s.changeExt j) :=
  exec_event_if (p := fun s => s.runsFilter (.ext j)) released rfl (by simp [State.runsFilter, working, present]) rfl

theorem does_changeBox {s : State} (released : s.scu.rstHeld = false) (working : s.part.working = true)
    (fitted : s.cfg.boxFitted = true) : Does (.detectorFilterChange .box) s s.changeBox :=
  exec_event_if (p := fun s => s.runsFilter .box) released rfl (by simp [State.runsFilter, working, fitted]) rfl

theorem does_changeButton {s : State} (released : s.scu.rstHeld = false) (working : s.part.working = true) :
    Does (.detectorFilterChange .button) s s.changeButton :=
  exec_event_if (p := fun s => s.runsFilter .button) released rfl (by simp [State.runsFilter, working]) rfl

/-- The state after the filter of an entry detector has changed, before what its activation does. -/
def State.entChanged (i : Arm) (s : State) : State :=
  ({ s with xu := { s.xu with ent := s.xu.ent.set i (s.xu.ent.get i).change } }).detectorEvent

/-- The state after the filter of an exit detector has changed, before what its release does. -/
def State.extChanged (j : Arm) (s : State) : State :=
  ({ s with xu := { s.xu with ext := s.xu.ext.set j (s.xu.ext.get j).change } }).detectorEvent

/-- The state after the filter of the box sensor has changed, before what its activation does. -/
def State.boxChanged (s : State) : State := ({ s with xu := { s.xu with box := s.xu.box.change } }).detectorEvent

theorem changeEnt_active {s : State} {i : Arm} (idle : (s.xu.ent.get i).level = false) :
    s.changeEnt i = (s.entChanged i).entryActivation i := if_pos (by simp [idle])

theorem changeEnt_release {s : State} {i : Arm} (active : (s.xu.ent.get i).level = true) : s.changeEnt i = s.entChanged i :=
  if_neg (by simp [active])

theorem changeExt_active {s : State} {j : Arm} (idle : (s.xu.ext.get j).level = false) : s.changeExt j = s.extChanged j :=
  if_pos (by simp [idle])

theorem changeExt_release {s : State} {j : Arm} (active : (s.xu.ext.get j).level = true) :
    s.changeExt j = (s.extChanged j).exitRelease j := if_neg (by simp [active])

theorem changeBox_active {s : State} (idle : s.xu.box.level = false) : s.changeBox = s.boxChanged.boxActivation :=
  if_pos (by simp [idle])

theorem changeBox_release {s : State} (active : s.xu.box.level = true) : s.changeBox = s.boxChanged :=
  if_neg (by simp [active])

theorem detectorEvent_eq (s : State) : s.detectorEvent = { s with
    scu := { s.scu with crossingQuiet := if s.scu.crossingQuiet.isRunning = true then .running 0 else s.scu.crossingQuiet } } := by
  unfold State.detectorEvent
  split <;> rfl

theorem boxActivation_eq (s : State) : s.boxActivation = if ∀ k, s.cell k = .free
    then (s.addUnmatched { id := 0, arrival := none, exit := none, source := .box }).unauthorisedEntry else s := by
  have free : (s.xu.cells.toList.all fun c => c == .free) = true ↔ ∀ k, s.cell k = .free := by
    have cells : s.xu.cells.toList = Arm.list.map s.cell := rfl
    rw [cells, List.all_map, List.all_eq_true]
    simp [Arm.mem_list]
  unfold State.boxActivation
  by_cases h : ∀ k, s.cell k = .free
  · rw [if_pos h, if_pos (free.2 h)]
  · rw [if_neg h, if_neg (mt free.1 h)]

end Sys2Proof.Machine

/-! ## Box sensor, button and quiet edges -/

namespace Sys2Proof.Machine

theorem sense_eq (raw : Bool) (d : Debounce) :
    d.sense raw = if raw = d.raw then d else ⟨d.level, raw, if raw = d.level then .stopped else .running 0⟩ := rfl

theorem senseInput_ignored {s : State} {input : Input} (idle : s.runsFilter input = false) (raw : Bool) :
    s.senseInput input raw = s := if_neg (by simp [idle])

/-- A raw level told changes the debouncing of its input alone (R61). -/
theorem senseInput_debounce {s : State} {input : Input} (runs : s.runsFilter input = true) (raw : Bool) (k : Input) :
    (s.senseInput input raw).debounce k = if k = input then (s.debounce input).sense raw else s.debounce k := by
  unfold State.senseInput
  rw [if_pos runs]
  cases input with
  | ent i =>
    cases k with
    | ent k =>
      simp only [State.debounce, Quad.get_set, Input.ent.injEq, eq_comm (a := k)]
      split
      · rfl
      · rfl
    | ext k => rfl
    | box => rfl
    | button => rfl
  | ext j =>
    cases k with
    | ext k =>
      simp only [State.debounce, Quad.get_set, Input.ext.injEq, eq_comm (a := k)]
      split
      · rfl
      · rfl
    | ent k => rfl
    | box => rfl
    | button => rfl
  | box => cases k <;> rfl
  | button => cases k <;> rfl

/-- A filtered level that turns is taken where nothing waits before it (log 1). -/
theorem step_of_filterTurns {s : State} {input : Input} (released : s.scu.rstHeld = false) (empty : s.pending = [])
    (nothing : ∀ c ∈ s.owedNow, c = none) (turns : s.filterTurns input = true) :
    ∃ first, s.filterTurns first = true ∧ step s = exec (.detectorFilterChange first) s := by
  obtain ⟨first, found⟩ := Option.isSome_iff_exists.1
    (List.find?_isSome.2 ⟨input, Input.mem_list input, turns⟩ : (Input.list.find? s.filterTurns).isSome = true)
  refine ⟨first, List.find?_some found, ?_⟩
  have now : s.owedNow.findSome? id = none := List.findSome?_eq_none_iff.2 nothing
  have owed : s.owed = some (.detectorFilterChange first) := by
    unfold State.owed State.owedJunction
    rw [if_neg (by simp [released]), List.append_assoc, List.findSome?_append, now, Option.none_or, List.cons_append, found]
    rfl
  rw [step, empty]
  show stepIdle s = _
  rw [stepIdle, owed]

/-! ### The button -/

/-- A press of the button that is taken (R144). -/
def State.takesPress (s : State) : Prop :=
  s.walkWorking = true ∧ s.cfg.walkMode = .onDemand ∧ (s.part = .recovering ∨ s.part = .running)
    ∧ s.wkp.state = .closed ∧ s.wkp.request = false

theorem pressButton_taken {s : State} (taken : s.takesPress) :
    s.pressButton = if s.wkp.interval = .expired then (s.modWkp fun w => { w with request := true }).latchPoint
      else s.modWkp fun w => { w with request := true } := by
  obtain ⟨works, mode, part, state, request⟩ := taken
  unfold State.pressButton
  refine if_pos ?_
  rcases part with part | part <;> simp [works, mode, part, state, request]

theorem pressButton_ignored {s : State} (ignored : ¬ s.takesPress) : s.pressButton = s := by
  unfold State.pressButton
  refine if_neg fun h => ignored ?_
  simp only [Bool.and_eq_true, Bool.or_eq_true, beq_iff_eq, Bool.not_eq_true', and_assoc] at h
  exact h

/-- The state with the button's filtered level changed. -/
def State.buttonChanged (s : State) : State := s.modWkp fun w => { w with button := w.button.flip }

theorem changeButton_press {s : State} (idle : s.wkp.button.level = false) : s.changeButton = s.buttonChanged.pressButton :=
  if_pos (by simp [idle])

theorem changeButton_release {s : State} (pressed : s.wkp.button.level = true) : s.changeButton = s.buttonChanged :=
  if_neg (by simp [pressed])

theorem buttonChanged_eq {s : State} {level : Bool} (h : s.wkp.button.level = level) :
    s.buttonChanged = { s with wkp := { s.wkp with button := ⟨!level, !level, .stopped⟩ } } := by
  unfold State.buttonChanged Debounce.flip
  dsimp only [State.modWkp]
  rw [h]

/-- A press taken after the interval has expired reaches the latch point (R143, R144). -/
theorem pressButton_latches {s : State} (taken : s.takesPress) (expired : s.wkp.interval = .expired)
    (granting : s.granting = true) :
    s.pressButton = { s with
      wkp := Wkp.latched s.walkwayClear { s.wkp with request := true }
      jar := { s.jar with due := s.jar.due || (s.walkwayClear && 0 < s.wkp.stagedW) } } := by
  rw [pressButton_taken taken, if_pos expired,
    latchPoint_eq (s := s.modWkp fun w => { w with request := true }) (fun _ => ⟨granting, taken.1⟩) fun _ => .inl granting]
  rfl

/-- The box sensor's activation with every cell FREE (R72). -/
theorem exec_boxActivation {s : State} (released : s.scu.rstHeld = false) (working : s.part.working = true)
    (fitted : s.cfg.boxFitted = true) (idle : s.xu.box.level = false) (free : ∀ k, s.cell k = .free) :
    ∃ t, exec (.detectorFilterChange .box) s = .next t ∧ t.flagged .unauthorisedEntry = true
      ∧ t.xu.unmatched = (if s.xu.unmatched.length < 4 then
          s.xu.unmatched ++ [{ id := 0, arrival := none, exit := none, source := .box }] else s.xu.unmatched)
      ∧ (s.part = .running → t.hld.unauthorised = true) ∧ (∀ i, (t.queue i).map Carrier.id = (s.queue i).map Carrier.id)
      ∧ ∀ i, (t.seg i).e = (s.seg i).e ∧ (t.seg i).x = (s.seg i).x := by
  have does := does_changeBox released working fitted
  have changed : s.boxChanged = { s with
      xu := { s.xu with box := s.xu.box.change }
      scu := { s.scu with crossingQuiet := if s.scu.crossingQuiet.isRunning = true then .running 0 else s.scu.crossingQuiet } } :=
    detectorEvent_eq _
  rw [changeBox_active idle, changed, boxActivation_eq, if_pos (by exact free)] at does
  generalize hu : ({ s with xu := _, scu := _ } : State) = u at does
  have raises := unauthorisedEntry_raises (u.addUnmatched { id := 0, arrival := none, exit := none, source := .box })
  obtain ⟨scu, aqu, -, -, segs, -, -, -, -, -⟩ := addUnmatched_keeps { id := 0, arrival := none, exit := none, source := .box } u
  have unmatched := addUnmatched_unmatched { id := 0, arrival := none, exit := none, source := .box } u
  generalize u.addUnmatched { id := 0, arrival := none, exit := none, source := .box } = v at *
  obtain ⟨-, taqu, -, txu, -, -, mtp, -⟩ := finish_keeps s v.unauthorisedEntry
  obtain ⟨-, -, -, -, -, -, unauthorised, -⟩ := finish_causes s v.unauthorisedEntry
  refine ⟨_, does, ?_, ?_, fun running => unauthorised.trans (raises.cause ?_), fun i => ?_, fun i => ⟨?_, ?_⟩⟩
  · rw [State.flagged, mtp]
    exact raises.flagged
  · rw [txu, raises.unmatched, unmatched, ← hu]
  · rw [State.part, scu, ← hu]
    exact running
  · rw [State.queue, taqu]
    refine (raises.ids i).trans ?_
    rw [State.queue, aqu, ← hu]
    rfl
  · rw [(finish_counts s _ i).1, raises.views.e, State.seg, segs, ← hu]
    rfl
  · rw [(finish_counts s _ i).2.1, raises.views.x, State.seg, segs, ← hu]
    rfl

/-- Settles O33. -/
theorem boxButtonAndQuietEdges : Obligations.BoxButtonAndQuietEdges := by
  refine ⟨fun s input raw => ⟨fun idle => senseInput_ignored idle raw, fun runs => ⟨fun k other => ?_, ?_⟩, filterTurns_iff,
    step_of_filterTurns⟩, fun s released => ⟨fun input idle => does_ignoredChange released (runsFilter_working idle),
    fun working fitted idle busy => ?_, fun working fitted active => ?_, exec_boxActivation released,
    fun i working present active => ?_, fun j working present idle => ?_, fun working idle => ?_, fun working pressed => ?_⟩⟩
  · rw [senseInput_debounce runs, if_neg other]
  · rw [senseInput_debounce runs, if_pos rfl]
    rfl
  · have does := does_changeBox released working fitted
    have activated : s.boxChanged.boxActivation = s.boxChanged := by
      obtain ⟨k, hk⟩ := busy
      rw [boxActivation_eq, if_neg]
      intro free
      refine hk ((free k).symm.trans ?_).symm
      rw [State.boxChanged, detectorEvent_eq]
      rfl
    rw [changeBox_active idle, activated, State.boxChanged, change_of_idle idle] at does
    exact does
  · have does := does_changeBox released working fitted
    rw [changeBox_release active, State.boxChanged, change_of_active active] at does
    exact does
  · have does := does_changeEnt released working present
    rw [changeEnt_release active, State.entChanged, change_of_active active] at does
    exact does
  · have does := does_changeExt released working present
    rw [changeExt_active idle, State.extChanged, change_of_idle idle] at does
    exact does
  · have does := does_changeButton released working
    rw [changeButton_press idle, buttonChanged_eq idle] at does
    refine ⟨fun taken waits => ?_, fun taken expired granting => ?_, fun ignored => ?_⟩
    · rw [pressButton_taken (by exact taken), if_neg (by exact waits)] at does
      exact does
    · rw [pressButton_latches (by exact taken) (by exact expired) (by exact granting)] at does
      exact does
    · rw [pressButton_ignored (by exact ignored)] at does
      exact does
  · have does := does_changeButton released working
    rw [changeButton_release pressed, buttonChanged_eq pressed] at does
    exact does

end Sys2Proof.Machine

/-! ## An entry matched to a grant -/

namespace Sys2Proof.Machine

/-- News at the head of a queue makes a round due (R75). -/
theorem onQueue_due {s : State} {i : Arm} {f : List Carrier → List Carrier} (granting : s.granting = true)
    (news : headNews (s.queue i) (f (s.queue i)) = true) : (s.onQueue i f).jar.due = true := by
  have granting' : (State.noteDemand s (s.putQueue i (f (s.queue i)))).granting = true := by
    rw [granting_of_keeps (s := s) (by simp) (by simp), granting]
  unfold State.onQueue
  dsimp only
  rw [if_pos news]
  have due : (State.noteDemand s (s.putQueue i (f (s.queue i)))).trigger.jar.due = true := by
    rw [(trigger_jar _).2.2.2.2.2, granting', Bool.or_true]
  generalize State.trigger _ = u at due
  rcases checkOverdue_cases u with e | e
  · rwa [e]
  · rw [e]
    cases ho : u.jar.overdue with
    | none => rwa [endOverdue_none ho]
    | some o =>
      rw [endOverdue_eq ho]
      show (u.jar.due || _) = true
      rw [due, Bool.true_or]

/-- The head's leaving its queue is news. -/
theorem headNews_filter {q : List Carrier} {h : Carrier} (head : q.head? = some h) :
    headNews q (q.filter fun c => c.id != h.id) = true := by
  unfold headNews
  rw [head]
  cases new : (q.filter fun c => c.id != h.id).head? with
  | none => rfl
  | some c =>
    have kept := List.of_mem_filter (List.mem_of_mem_head? (Option.mem_def.2 new))
    have other : (h.id != c.id) = true := by
      rw [bne_comm]
      exact kept
    show (_ || _) = true
    rw [other, Bool.true_or]

theorem countX_other {i j : Arm} (h : j ≠ i) (s : State) : (s.countX i).seg j = s.seg j := by
  unfold State.countX
  rw [evaluate_other (Ne.symm h), takeView_seg, if_neg (Ne.symm h)]
  exact seg_modSeg_other h s _

theorem countX_flag {k : EventKind} (h : k ≠ .countInconsistent) (i : Arm) (s : State) :
    (s.countX i).flagged k = s.flagged k := by
  unfold State.countX
  rw [State.flagged, (evaluate_keeps _ _).2.2.2.2.2.2.2.2.2.1]
  exact takeView_flag k h _ _ _

theorem mapFirst_at {α : Type} {p : α → Bool} {f : α → α} {front back : List α} {a : α} (skipped : ∀ x ∈ front, p x = false)
    (first : p a = true) : mapFirst p f (front ++ a :: back) = front ++ f a :: back := by
  induction front with
  | nil => exact if_pos first
  | cons b front ih =>
    rw [List.cons_append, mapFirst, if_neg (by simp [skipped b]), ih fun x hx => skipped x (List.mem_cons_of_mem _ hx)]
    rfl

theorem oldestGranted_at {s : State} {i : Arm} {m : Movement} {front back : List Entry} {e : Entry} (move : s.move i = some m)
    (carriers : m.carriers = front ++ e :: back) (skipped : ∀ x ∈ front, x.status.isGranted = false)
    (granted : e.status.isGranted = true) : s.oldestGranted i = some (m, e.id) := by
  have found : m.carriers.find? (fun e => e.status.isGranted) = some e := by
    rw [carriers, List.find?_append, List.find?_eq_none.2 fun x hx => by simp [skipped x hx], Option.none_or,
      List.find?_cons_of_pos (p := fun e : Entry => e.status.isGranted) granted]
  rw [State.oldestGranted, move, Option.bind_some, found]
  rfl

/-- The state in which an entry has been matched to the grant of carrier `id`, before the follow-on test (R63). -/
def State.entered (i : Arm) (m : Movement) (id : CarrierId) (s : State) : State :=
  ((s.setMove i (some { m with
    carriers := mapFirst (fun e => e.status.isGranted) (Entry.enter ((s.recordOn i id).map Carrier.cls)) m.carriers })).removeRecord
      i id).countX i

theorem entered_keeps (i : Arm) (m : Movement) (id : CarrierId) (s : State) :
    (s.entered i m id).scu = s.scu ∧ (s.entered i m id).closures = s.closures ∧ (s.entered i m id).nbrs = s.nbrs
    ∧ (s.entered i m id).fli = s.fli ∧ (s.entered i m id).wkp = s.wkp ∧ (s.entered i m id).hld = s.hld := by
  simp [State.entered, State.removeRecord]

theorem matchedEntry_eq (i : Arm) (m : Movement) (id : CarrierId) (s : State) : s.matchedEntry i m id =
    if s.granting = true then (s.entered i m id).followOnTest i else s.entered i m id := by
  obtain ⟨scu, -, -, -, -, hld⟩ := entered_keeps i m id s
  rw [← granting_of_keeps scu hld]
  rfl

/-- What an entry matched to a grant leaves, before the follow-on test (R63, R92, R96). -/
structure Entered (i : Arm) (l : List Entry) (m : Movement) (id : CarrierId) (s t : State) : Prop where
  moves : ∀ j, t.move j = if j = i then some { m with carriers := l } else s.move j
  queue : t.queue i = (s.queue i).filter fun r => r.id != id
  queues : ∀ j, j ≠ i → t.queue j = s.queue j
  sends : t.aqu.sends = s.aqu.sends
  linkTx : t.aqu.linkTx = s.aqu.linkTx
  linkRx : t.aqu.linkRx = s.aqu.linkRx
  x : (t.seg i).x = (s.seg i).x + 1
  e : (t.seg i).e = (s.seg i).e
  r : (t.seg i).r = (s.seg i).r
  tested : ViewTested i ((s.seg i).occ - 1) (s.seg i).r s t
  others : ∀ j, j ≠ i → (t.seg j).x = (s.seg j).x ∧ (t.seg j).e = (s.seg j).e ∧ (t.seg j).r = (s.seg j).r
    ∧ (t.seg j).occ = (s.seg j).occ ∧ (t.seg j).unsure = (s.seg j).unsure
  flags : ∀ k, k ≠ .countInconsistent → t.flagged k = s.flagged k
  xu : t.xu = { s.xu with moves := t.xu.moves }
  jar : t.jar = { s.jar with due := t.jar.due }
  due : ∀ h, s.granting = true → s.head i = some h → h.id = id → t.jar.due = true

theorem entered_does {i : Arm} {m : Movement} {id : CarrierId} {s : State} (spares : DesignationSpares s i id) :
    Entered i (mapFirst (fun e => e.status.isGranted) (Entry.enter ((s.recordOn i id).map Carrier.cls)) m.carriers) m id s
      (s.entered i m id) := by
  unfold State.entered State.removeRecord
  generalize hl : mapFirst (fun e : Entry => e.status.isGranted) (Entry.enter ((s.recordOn i id).map Carrier.cls)) m.carriers = l
  have spared : (s.setMove i (some { m with carriers := l })).sparedBy i
      (((s.setMove i (some { m with carriers := l })).queue i).filter fun c => c.id != id) :=
    (spares.of_keeps (t := s.setMove i (some { m with carriers := l })) rfl rfl).sparedBy_filter
  obtain ⟨overdue, xu, aqu⟩ := onQueue_spared (f := fun q => q.filter fun c => c.id != id) spared
  have counts := fun j => onQueue_counts i j (fun q => q.filter fun c => c.id != id) (s.setMove i (some { m with carriers := l }))
  have capN := onQueue_capN i i (fun q => q.filter fun c => c.id != id) (s.setMove i (some { m with carriers := l }))
  obtain ⟨scu, -, -, -, -, -, mtp, -⟩ :=
    onQueue_keeps i (fun q => q.filter fun c => c.id != id) (s.setMove i (some { m with carriers := l }))
  have switches := switchesStay_onQueue i (fun q => q.filter fun c => c.id != id) (s.setMove i (some { m with carriers := l }))
  have due : ∀ h, s.granting = true → s.head i = some h → h.id = id →
      ((s.setMove i (some { m with carriers := l })).onQueue i fun q => q.filter fun c => c.id != id).jar.due = true := by
    rintro h granting head rfl
    exact onQueue_due (s := s.setMove i (some { m with carriers := l })) granting (headNews_filter head)
  generalize (s.setMove i (some { m with carriers := l })).onQueue i (fun q => q.filter fun c => c.id != id) = u at *
  obtain ⟨-, xaqu, -, xxu, xjar, -⟩ := countX_keeps i u
  have queue : ∀ j, (u.countX i).queue j = if i = j then (s.queue i).filter fun r => r.id != id else s.queue j := fun j => by
    rw [State.queue, xaqu]
    exact queue_of_set (congrArg Aqu.queues aqu) j
  have flagged (k : EventKind) : u.flagged k = s.flagged k := by
    rw [State.flagged, mtp]
    rfl
  obtain ⟨x, r, e⟩ := countX_counts i i u
  rw [if_pos rfl] at x
  obtain ⟨e', x', r', occ', unsure'⟩ := counts i
  have tested := countX_tested i u
  rw [occ', r'] at tested
  exact
    { moves := fun j => by
        rw [State.move, xxu, xu, ← State.move, move_setMove]
        exact if_congr eq_comm rfl rfl
      queue := (queue i).trans (if_pos rfl), queues := fun j hj => (queue j).trans (if_neg (Ne.symm hj))
      sends := by rw [xaqu, aqu]; rfl, linkTx := by rw [xaqu, aqu]; rfl, linkRx := by rw [xaqu, aqu]; rfl
      x := by rw [x, x']; rfl, e := e.trans e', r := r.trans r'
      tested := tested.before (congrArg Scu.cfg scu) capN unsure' (flagged _)
      others := fun j hj => by
        obtain ⟨e, x, r, occ, unsure⟩ := counts j
        rw [countX_other hj]
        exact ⟨x, e, r, occ, unsure⟩
      flags := fun k hk => (countX_flag hk i u).trans (flagged k)
      xu := by rw [xxu, xu]; rfl
      jar := by
        rw [xjar, switches, overdue]
        rfl
      due := fun h granting head hid => by
        rw [xjar]
        exact due h granting head hid }

/-- Settles O30. -/
theorem matchedEntry : Obligations.MatchedEntry := by
  intro i m front back e start deferred s released part present idle law others move carriers skipped granted
  have working : s.part.working = true := by rcases part with h | h <;> rw [h] <;> rfl
  have does := does_changeEnt released working present
  have changed : s.entChanged i = { s with
      xu := { s.xu with ent := s.xu.ent.set i (s.xu.ent.get i).change }
      scu := { s.scu with crossingQuiet := if s.scu.crossingQuiet.isRunning = true then .running 0 else s.scu.crossingQuiet } } :=
    detectorEvent_eq _
  rw [changeEnt_active idle] at does
  have isGranted : e.status.isGranted = true := by rw [granted]; rfl
  have activates : (s.entChanged i).entryActivation i = (s.entChanged i).matchedEntry i m e.id := by
    have running : ((s.entChanged i).part == .running || (s.entChanged i).part == .faulted) = true := by
      rw [changed]
      show (s.part == .running || s.part == .faulted) = true
      rcases part with h | h <;> rw [h] <;> rfl
    unfold State.entryActivation
    rw [if_pos running, oldestGranted_at (s := s.entChanged i) (by rw [changed]; exact move) carriers skipped isGranted]
  have entered := entered_does (m := m) (s := s.entChanged i) (i := i) (id := e.id)
    (DesignationSpares.of_keeps (s := s) ⟨law, fun o ho _ => others o ho⟩ (by rw [changed]) (by rw [changed]))
  obtain ⟨scu, closures, nbrs, fli, wkp, hld⟩ := entered_keeps i m e.id (s.entChanged i)
  have granting : (s.entChanged i).granting = s.granting := by rw [changed]; rfl
  rw [activates, matchedEntry_eq, granting] at does
  rw [carriers, mapFirst_at skipped isGranted, changed] at entered
  rw [changed] at scu closures nbrs fli wkp hld does
  refine ⟨_, does, entered.moves, entered.queue, entered.queues, entered.sends, entered.linkTx, entered.linkRx, entered.x, entered.e,
    entered.r, entered.tested.before rfl rfl rfl rfl, entered.others, entered.flags, ?_, fun j hj => ?_, ?_, ?_, ?_, ?_, closures,
    entered.jar, entered.due, scu, nbrs, fli, wkp, hld⟩
  · rw [entered.xu]
    show (s.xu.ent.set i _).get i = _
    rw [Quad.get_set, if_pos rfl, change_of_idle idle]
  · rw [entered.xu]
    show (s.xu.ent.set i _).get j = _
    rw [Quad.get_set, if_neg (Ne.symm hj)]
  · rw [entered.xu]
  · rw [entered.xu]
  · rw [entered.xu]
  · rw [entered.xu]

end Sys2Proof.Machine

/-! ## Exit releases -/

namespace Sys2Proof.Machine

theorem releasedCell_eq (s : State) (k : Arm) : s.releasedCell k =
    if s.hld.overrun = true ∨ s.hld.unauthorised = true ∨ s.part = .faulted then .emergency
    else match s.jar.overdue with
      | some o => if k ∈ cellSet o.arrival o.exit then .reserved o.id else .free
      | none => .free := by
  unfold State.releasedCell State.heldForCarrier
  by_cases h : s.hld.overrun = true ∨ s.hld.unauthorised = true ∨ s.part = .faulted
  · rw [if_pos h, if_pos]
    simpa [or_assoc] using h
  · rw [if_neg h, if_neg]
    · cases s.jar.overdue with
      | none => rfl
      | some o => simp
    · simpa [or_assoc] using h

theorem countE_flag {k : EventKind} (h : k ≠ .countInconsistent) (j : Arm) (consume : Bool) (s : State) :
    (s.countE j consume).flagged k = s.flagged k := by
  unfold State.countE
  rw [State.flagged, (evaluate_keeps _ _).2.2.2.2.2.2.2.2.2.1]
  exact takeView_flag k h _ _ _

theorem openTest_due {s : State} (due : s.jar.due = true) : s.openTest.jar.due = true := by
  unfold State.openTest
  split
  · rw [(trigger_jar _).2.2.2.2.2]
    show (s.jar.due || _) = true
    rw [due, Bool.true_or]
  · exact due

/-- The end of a movement record makes a round due (R75). -/
theorem endMovement_due {s : State} (granting : s.granting = true) (i j : Arm) : (s.endMovement i j).jar.due = true := by
  unfold State.endMovement
  refine openTest_due ?_
  rw [(trigger_jar _).2.2.2.2.2]
  show (_ || s.granting) = true
  rw [granting, Bool.or_true]

/-- The end of a movement record tests whether the walkway opens (R145). -/
theorem endMovement_walk {s u : State} {i j : Arm} (wkp : u.wkp = s.wkp) (scu : u.scu = s.scu) (hld : u.hld = s.hld)
    (unmatched : u.xu.unmatched = s.xu.unmatched) (moves : ∀ k, k ≠ i → u.move k = s.move k) :
    WalkTested (s.walkOpens s.xu.unmatched (some i)) s (u.endMovement i j) := by
  unfold State.endMovement
  refine walkTested_openTest ?_ ?_ ?_ ?_ fun k => ?_
  · rw [(trigger_keeps _).2.2.2.2.2.2.2.1]
    exact wkp
  · exact (granting_of_keeps (trigger_keeps _).1 (by simp)).trans (granting_of_keeps scu hld)
  · simp [State.cfg, scu]
  · rw [trigger_eq]
    exact unmatched
  · rw [trigger_eq]
    show (u.setMove i none).move k = _
    rw [move_setMove]
    by_cases hk : i = k
    · rw [if_pos hk, if_pos (by rw [hk])]
    · rw [if_neg hk, if_neg (fun e => hk (Option.some.inj e).symm), moves k (Ne.symm hk)]

/-- What every exit release does, with or without a reservation consumed (R66, R92, R96). -/
structure ExitCounted (j : Arm) (consume : Bool) (s t : State) : Prop where
  e : (t.seg j).e = (s.seg j).e + 1
  x : (t.seg j).x = (s.seg j).x
  r : (t.seg j).r = if consume then (s.seg j).r - 1 else (s.seg j).r
  tested : ViewTested j ((s.seg j).occ + 1) (if consume then (s.seg j).r - 1 else (s.seg j).r) s t
  ext : t.xu.ext = s.xu.ext
  flags : ∀ k, k ≠ .countInconsistent → k ≠ .phantomExit → t.flagged k = s.flagged k

/-- E counted in a state that is `s` but for the crossing and PHANTOM_EXIT. -/
theorem exitCounted {s u t : State} {j : Arm} {consume : Bool} (scu : u.scu = s.scu) (segs : u.segs = s.segs)
    (ext : t.xu.ext = s.xu.ext) (flags : ∀ k, k ≠ .phantomExit → u.flagged k = s.flagged k)
    (tsegs : t.segs = (u.countE j consume).segs) (tmtp : t.mtp = (u.countE j consume).mtp) : ExitCounted j consume s t := by
  have seg : u.seg j = s.seg j := by rw [State.seg, segs, State.seg]
  have tseg : t.seg j = (u.countE j consume).seg j := by rw [State.seg, tsegs, State.seg]
  have tflagged (k : EventKind) : t.flagged k = (u.countE j consume).flagged k := by rw [State.flagged, tmtp, State.flagged]
  obtain ⟨e, r, x⟩ := countE_counts j j consume u
  have tested := countE_tested j consume u
  rw [seg] at e r x tested
  rw [if_pos rfl] at e
  exact
    { e := by rw [tseg, e], x := by rw [tseg, x]
      r := by rw [tseg, r]; simp
      tested := ((tested.before (congrArg Scu.cfg scu) (by rw [seg]) (by rw [seg]) (flags _ nofun)).after (by rw [tseg])
        (by rw [tseg]) (tflagged _))
      ext
      flags := fun k hk hk' => (tflagged k).trans ((countE_flag hk j consume u).trans (flags k hk')) }

/-! ### Matched to a movement record -/

theorem exitRelease_of_move {s : State} {i j : Arm} {m : Movement} (h : s.exitMove j = some i) (hm : s.move i = some m) :
    s.exitRelease j = if m.carriers.eraseP Entry.isCrossing = []
      then ((s.setMove i (some { m with carriers := m.carriers.eraseP Entry.isCrossing })).countE j true).endMovement i j
      else (s.setMove i (some { m with carriers := m.carriers.eraseP Entry.isCrossing })).countE j true := by
  unfold State.exitRelease
  rw [h]
  dsimp only
  rw [hm]
  dsimp only
  cases m.carriers.eraseP Entry.isCrossing <;> rfl

/-- What an exit release does that is matched to the movement record of arm `i` (R52, R66, R75, R145). -/
structure ExitMatched (i j : Arm) (l : List Entry) (m : Movement) (s t : State) : Prop extends ExitCounted j true s t where
  phantom : t.flagged .phantomExit = s.flagged .phantomExit
  unmatched : t.xu.unmatched = s.xu.unmatched
  moves : ∀ k, t.move k = if i = k then (if l = [] then none else some { m with carriers := l }) else s.move k
  cells : ∀ k, t.cell k = if l = [] ∧ k ∈ cellSet i j then s.releasedCell k else s.cell k
  wkp : l ≠ [] → t.wkp = s.wkp
  due : l = [] → s.granting = true → t.jar.due = true
  walk : l = [] → WalkTested (s.walkOpens s.xu.unmatched (some i)) s t

theorem exitRelease_matches {s : State} {i j : Arm} {m : Movement} (h : s.exitMove j = some i) (hm : s.move i = some m) :
    ExitMatched i j (m.carriers.eraseP Entry.isCrossing) m s (s.exitRelease j) := by
  obtain ⟨moves, cells, -, unmatched, -, ext, -⟩ := exitRelease_matched h hm
  have eq := exitRelease_of_move h hm
  generalize m.carriers.eraseP Entry.isCrossing = l at *
  have start {t : State} (ht : t.xu.ext = s.xu.ext)
      (tsegs : t.segs = ((s.setMove i (some { m with carriers := l })).countE j true).segs)
      (tmtp : t.mtp = ((s.setMove i (some { m with carriers := l })).countE j true).mtp) : ExitCounted j true s t :=
    exitCounted (u := s.setMove i (some { m with carriers := l })) rfl rfl ht (fun _ _ => rfl) tsegs tmtp
  obtain ⟨scu, -, -, xu, -, -, -, wkp, hld, -⟩ := countE_keeps j true (s.setMove i (some { m with carriers := l }))
  have phantom : ((s.setMove i (some { m with carriers := l })).countE j true).flagged .phantomExit = s.flagged .phantomExit :=
    countE_flag (by decide) j true _
  have move : ∀ k, k ≠ i → ((s.setMove i (some { m with carriers := l })).countE j true).move k = s.move k := fun k hk => by
    rw [State.move, xu, ← State.move, move_setMove, if_neg (Ne.symm hk)]
  generalize (s.setMove i (some { m with carriers := l })).countE j true = u at *
  by_cases empty : l = []
  · rw [if_pos empty] at eq
    rw [eq] at moves cells unmatched ext ⊢
    obtain ⟨-, -, -, segs, -, -, -, mtp, -⟩ := endMovement_keeps i j u
    exact
      { start ext segs mtp with
        phantom := by rw [State.flagged, mtp]; exact phantom
        unmatched, moves, cells, wkp := fun some' => absurd empty some'
        due := fun _ granting => endMovement_due ((granting_of_keeps scu hld).trans granting) i j
        walk := fun _ => endMovement_walk wkp scu hld (by rw [xu]; rfl) move }
  · rw [if_neg empty] at eq
    rw [eq] at moves cells unmatched ext ⊢
    exact
      { start ext rfl rfl with
        phantom, unmatched, moves, cells, wkp := fun _ => wkp, due := fun none' => absurd none' empty
        walk := fun none' => absurd none' empty }

/-! ### Matched to no movement record -/

/-- What an exit release does that is matched to no movement record (R66, R67, R145). -/
structure ExitUnmatched (j : Arm) (s t : State) : Prop extends ExitCounted j false s t where
  moves : t.xu.moves = s.xu.moves
  cells : t.xu.cells = s.xu.cells
  leaves : s.xu.unmatched.any (Unmatched.leavesBy j) = true → t.flagged .phantomExit = s.flagged .phantomExit
    ∧ t.xu.unmatched = s.xu.unmatched.eraseP (Unmatched.leavesBy j)
    ∧ WalkTested (s.walkOpens (s.xu.unmatched.eraseP (Unmatched.leavesBy j)) none) s t
  phantom : s.xu.unmatched.any (Unmatched.leavesBy j) = false →
    t.flagged .phantomExit = true ∧ t.xu.unmatched = s.xu.unmatched ∧ t.wkp = s.wkp

theorem exitRelease_none {s : State} {j : Arm} (h : s.exitMove j = none) :
    s.exitRelease j = if s.xu.unmatched.any (Unmatched.leavesBy j) then
        ((s.setUnmatched (s.xu.unmatched.eraseP (Unmatched.leavesBy j))).countE j false).openTest
      else (s.raise .phantomExit).countE j false := by
  unfold State.exitRelease
  rw [h]

theorem exitRelease_unmatched {s : State} {j : Arm} (h : s.exitMove j = none) : ExitUnmatched j s (s.exitRelease j) := by
  rw [exitRelease_none h]
  split
  · next leaves =>
    obtain ⟨scu, -, -, xu, -, -, -, wkp, hld, -⟩ := countE_keeps j false (s.setUnmatched (s.xu.unmatched.eraseP (Unmatched.leavesBy j)))
    have phantom : ((s.setUnmatched (s.xu.unmatched.eraseP (Unmatched.leavesBy j))).countE j false).flagged .phantomExit = s.flagged .phantomExit := countE_flag (k := .phantomExit) (by decide) j false _
    have counted {t : State} := exitCounted (s := s) (t := t) (u := s.setUnmatched (s.xu.unmatched.eraseP (Unmatched.leavesBy j))) (j := j) (consume := false) rfl rfl
    generalize (s.setUnmatched (s.xu.unmatched.eraseP (Unmatched.leavesBy j))).countE j false = u at *
    obtain ⟨-, -, -, oxu, segs, -, -, -, mtp, -⟩ := openTest_keeps u
    exact
      { counted (by rw [oxu, xu]; rfl) (fun _ _ => rfl) segs mtp with
        moves := by rw [oxu, xu]; rfl, cells := by rw [oxu, xu]; rfl
        leaves := fun _ => ⟨by rw [State.flagged, mtp]; exact phantom, by rw [oxu, xu]; rfl,
          walkTested_openTest wkp (granting_of_keeps scu hld) (congrArg Scu.cfg scu) (by rw [xu]; rfl) fun k => by
            rw [State.move, xu]
            rfl⟩
        phantom := fun none' => absurd (leaves.symm.trans none') (by decide) }
  · next none' =>
    obtain ⟨-, -, -, xu, -, -, -, wkp, -⟩ := countE_keeps j false (s.raise .phantomExit)
    exact
      { exitCounted (s := s) (u := s.raise .phantomExit) rfl rfl (by rw [xu]; rfl) (fun k hk => by simp [Ne.symm hk]) rfl rfl with
        moves := by rw [xu]; rfl, cells := by rw [xu]; rfl
        leaves := fun leaves => absurd leaves none'
        phantom := fun _ => ⟨(countE_flag (k := .phantomExit) (by decide) j false _).trans (by simp), by rw [xu]; rfl, wkp⟩ }

end Sys2Proof.Machine

/-! ## The release of an exit detector -/

namespace Sys2Proof.Machine

theorem ExitCounted.finish {j : Arm} {consume : Bool} {s t : State} (h : ExitCounted j consume s t) (old : State) :
    ExitCounted j consume s (State.finish old t) := by
  obtain ⟨-, -, -, xu, -, -, mtp, -⟩ := finish_keeps old t
  obtain ⟨e, x, r, -⟩ := finish_counts old t j
  exact
    { e := e.trans h.e, x := x.trans h.x, r := r.trans h.r, tested := h.tested.finish old, ext := by rw [xu]; exact h.ext
      flags := fun k hk hk' => by
        rw [State.flagged, mtp]
        exact h.flags k hk hk' }

theorem ExitMatched.finish {i j : Arm} {l : List Entry} {m : Movement} {s t : State} (h : ExitMatched i j l m s t)
    (old : State) : ExitMatched i j l m s (State.finish old t) := by
  obtain ⟨-, -, -, xu, -, -, -, -, -, -, due, -⟩ := finish_eventEnd old t
  obtain ⟨-, -, -, -, -, wkp, mtp, -⟩ := finish_keeps old t
  exact
    { h.toExitCounted.finish old with
      phantom := by rw [State.flagged, mtp]; exact h.phantom
      unmatched := by rw [xu]; exact h.unmatched
      moves := fun k => by rw [State.move, xu]; exact h.moves k
      cells := fun k => by rw [State.cell, xu]; exact h.cells k
      wkp := fun some' => wkp.trans (h.wkp some'), due := fun none' granting => due (h.due none' granting)
      walk := fun none' => (h.walk none').finish old }

theorem ExitUnmatched.finish {j : Arm} {s t : State} (h : ExitUnmatched j s t) (old : State) :
    ExitUnmatched j s (State.finish old t) := by
  obtain ⟨-, -, -, xu, -, wkp, mtp, -⟩ := finish_keeps old t
  exact
    { h.toExitCounted.finish old with
      moves := by rw [xu]; exact h.moves, cells := by rw [xu]; exact h.cells
      leaves := fun leaves => by
        obtain ⟨phantom, unmatched, walk⟩ := h.leaves leaves
        exact ⟨by rw [State.flagged, mtp]; exact phantom, by rw [xu]; exact unmatched, walk.finish old⟩
      phantom := fun none' => by
        obtain ⟨phantom, unmatched, kept⟩ := h.phantom none'
        exact ⟨by rw [State.flagged, mtp]; exact phantom, by rw [xu]; exact unmatched, wkp.trans kept⟩ }

theorem eraseP_at {α : Type} {p : α → Bool} {front back : List α} {a : α} (skipped : ∀ x ∈ front, p x = false)
    (first : p a = true) : (front ++ a :: back).eraseP p = front ++ back := by
  rw [List.eraseP_append_right _ fun x hx => by simp [skipped x hx], List.eraseP_cons_of_pos first]

theorem leavesBy_iff {j : Arm} {u : Unmatched} : u.leavesBy j = true ↔ u.exit = some j ∨ u.exit = none := by
  simp [Unmatched.leavesBy]

theorem leavesBy_false {j : Arm} {u : Unmatched} (h : u.exit ≠ some j ∧ u.exit ≠ none) : u.leavesBy j = false := by
  rw [← Bool.not_eq_true, leavesBy_iff, not_or]
  exact h

/-- The state with the filter of an exit detector changed is the one before but for the filter and the quiet timer. -/
theorem extChanged_eq (j : Arm) (s : State) : s.extChanged j = { s with
    xu := { s.xu with ext := s.xu.ext.set j (s.xu.ext.get j).change }
    scu := { s.scu with crossingQuiet := if s.scu.crossingQuiet.isRunning = true then .running 0 else s.scu.crossingQuiet } } :=
  detectorEvent_eq _

/-- Settles O32. -/
theorem exitRelease : Obligations.ExitRelease := by
  refine ⟨releasedCell_eq, fun j s released working present active => ?_⟩
  have does := does_changeExt released working present
  rw [changeExt_release active] at does
  have kept := exitRelease_keeps j (s.extChanged j)
  have changed := extChanged_eq j s
  have ext : ((s.extChanged j).xu.ext.get j).level = false ∧ ((s.extChanged j).xu.ext.get j).stuck = false := by
    rw [changed]
    dsimp only
    rw [Quad.get_set, if_pos rfl, change_of_active active]
    exact ⟨rfl, rfl⟩
  have exits : (s.extChanged j).exitMove j = s.exitMove j := by
    rw [changed]
    rfl
  obtain ⟨scu, aqu, closures, -, nbrs, -⟩ := finish_keeps s ((s.extChanged j).exitRelease j)
  have queues : (State.finish s ((s.extChanged j).exitRelease j)).aqu.queues = s.aqu.queues := by
    rw [aqu, kept.2.1, changed]
  have closures' : (State.finish s ((s.extChanged j).exitRelease j)).closures = s.closures := by
    rw [closures, kept.2.2.1, changed]
  have nbrs' : (State.finish s ((s.extChanged j).exitRelease j)).nbrs = s.nbrs := by
    rw [nbrs, kept.2.2.2.1, changed]
  have part : (State.finish s ((s.extChanged j).exitRelease j)).part = s.part := by
    rw [State.part, scu, kept.1, changed]
    rfl
  refine ⟨_, does, ?_⟩
  cases found : s.exitMove j with
  | some i =>
    obtain ⟨m, hm, -, -⟩ := exitMove_some found
    have done := (exitRelease_matches (m := m) (exits.trans found) (by rw [changed]; exact hm)).finish s
    generalize State.finish s ((s.extChanged j).exitRelease j) = t at *
    rw [changed] at done ext
    refine ⟨done.e, done.x, by rw [done.ext]; exact ext.1, by rw [done.ext]; exact ext.2, ?_, ?_, nofun, queues, closures', nbrs', part⟩
    · rw [if_neg nofun]
      exact done.tested.before rfl rfl rfl rfl
    · intro i' m' front e back hi' hm' carriers skipped crossing
      obtain rfl := Option.some.inj hi'
      obtain rfl := Option.some.inj (hm.symm.trans hm')
      rw [carriers, eraseP_at skipped crossing] at done
      refine ⟨done.r, done.unmatched, done.phantom, ?_, fun k hk => ?_, fun rest => ⟨?_, done.wkp rest⟩, fun empty =>
        ⟨fun k => ?_, done.due empty, done.walk empty⟩⟩
      · rw [done.moves, if_pos rfl]
      · rw [done.moves, if_neg (Ne.symm hk)]
        rfl
      · refine cells_eq_of_cell (s := s) fun k => ?_
        rw [done.cells, if_neg fun h => rest h.1]
        rfl
      · rw [done.cells]
        simp only [empty, true_and]
        rfl
  | none =>
    have done := (exitRelease_unmatched (exits.trans found)).finish s
    generalize State.finish s ((s.extChanged j).exitRelease j) = t at *
    rw [changed] at done ext
    refine ⟨done.e, done.x, by rw [done.ext]; exact ext.1, by rw [done.ext]; exact ext.2, ?_, nofun, fun _ => ⟨done.r, done.moves,
      done.cells, fun front u back unmatched skipped leaves => ?_, fun stays => ?_⟩, queues, closures', nbrs', part⟩
    · rw [if_pos rfl]
      exact done.tested.before rfl rfl rfl rfl
    · have leaver : u.leavesBy j = true := leavesBy_iff.2 leaves
      have rest : s.xu.unmatched.eraseP (Unmatched.leavesBy j) = front ++ back := by
        rw [unmatched, eraseP_at (fun x hx => leavesBy_false (skipped x hx)) leaver]
      obtain ⟨phantom, left, walk⟩ := done.leaves (by
        refine List.any_eq_true.2 ⟨u, ?_, leaver⟩
        show u ∈ s.xu.unmatched
        rw [unmatched]
        simp)
      refine ⟨left.trans rest, phantom, ?_⟩
      rw [← rest]
      exact walk
    · obtain ⟨phantom, kept, wkp⟩ := done.phantom (by
        refine List.any_eq_false.2 fun u hu => ?_
        rw [leavesBy_false (stays u hu)]
        exact Bool.false_ne_true)
      exact ⟨kept, phantom, wkp⟩

end Sys2Proof.Machine

/-! ## An entry that matches no grant -/

namespace Sys2Proof.Machine

/-- The state in which the head has passed its arm's entry, before UNAUTHORISED_ENTRY is raised (R64). -/
def State.passed (i : Arm) (s : State) : State :=
  ((s.onQueue i List.tail).addUnmatched
    { id := ((s.head i).map Carrier.id).getD 0, arrival := some i, exit := (s.head i).map Carrier.exit
      source := .entry }).countX i

theorem unmatchedEntry_eq (i : Arm) (s : State) : s.unmatchedEntry i = (s.passed i).unauthorisedEntry := rfl

/-- The entry activation finds no grant to match (R63, R64). -/
def State.matchesNone (s : State) (i : Arm) : Prop :=
  s.part = .listening ∨ s.part = .recovering ∨ ∀ m, s.move i = some m → ∀ e ∈ m.carriers, e.status.isGranted = false

theorem oldestGranted_none {s : State} {i : Arm} (h : ∀ m, s.move i = some m → ∀ e ∈ m.carriers, e.status.isGranted = false) :
    s.oldestGranted i = none := by
  unfold State.oldestGranted
  cases hm : s.move i with
  | none => rfl
  | some m =>
    rw [Option.bind_some, List.find?_eq_none.2 fun e he => by simp [h m hm e he]]
    rfl

theorem oldestGranted_of_moves {s : State} {i : Arm} (h : s.matchesNone i) (moves : s.part.moves) : s.oldestGranted i = none := by
  rcases h with h | h | h
  · rw [h] at moves
    exact absurd moves (by simp [PartState.moves])
  · rw [h] at moves
    exact absurd moves (by simp [PartState.moves])
  · exact oldestGranted_none h

theorem entryActivation_unmatched {s : State} {i : Arm} (h : s.matchesNone i) :
    s.entryActivation i = (s.passed i).unauthorisedEntry := by
  rw [← unmatchedEntry_eq]
  unfold State.entryActivation
  split
  · next moves =>
    rw [oldestGranted_of_moves h (by simpa [PartState.moves] using moves)]
  · rfl

/-- What the head's passing leaves alone, and what it counts (R64, R92, R96). -/
structure Passed (i : Arm) (s t : State) : Prop where
  ids : ∀ j, (t.queue j).map Carrier.id = if i = j then (s.queue i).tail.map Carrier.id else (s.queue j).map Carrier.id
  sends : t.aqu.sends = s.aqu.sends
  moves : t.xu.moves = s.xu.moves
  unmatched : t.xu.unmatched = (if s.xu.unmatched.length < 4 then s.xu.unmatched ++
    [{ id := ((s.head i).map Carrier.id).getD 0, arrival := some i, exit := (s.head i).map Carrier.exit, source := .entry }]
    else s.xu.unmatched)
  cfg : t.cfg = s.cfg
  capN : (t.seg i).capN = (s.seg i).capN
  x : (t.seg i).x = (s.seg i).x + 1
  e : (t.seg i).e = (s.seg i).e
  r : ∀ j, (t.seg j).r = (s.seg j).r
  tested : ViewTested i ((s.seg i).occ - 1) (s.seg i).r s t
  scu : t.scu = s.scu
  hld : t.hld = s.hld
  closures : t.closures = s.closures
  nbrs : t.nbrs = s.nbrs
  jar : t.jar = (s.onQueue i List.tail).jar
  queue : t.queue = (s.onQueue i List.tail).queue

theorem passed_does (i : Arm) (s : State) : Passed i s (s.passed i) := by
  unfold State.passed
  generalize hu : Unmatched.mk (((s.head i).map Carrier.id).getD 0) (some i) ((s.head i).map Carrier.exit) .entry = u
  obtain ⟨scu, closures, nbrs, -, -, hld, mtp, -⟩ := onQueue_keeps i List.tail s
  obtain ⟨moves, unmatched, -, -, -, sends, -⟩ := onQueue_crossing i List.tail s
  have ids := fun j => onQueue_ids i j List.tail s
  have counts := fun j => onQueue_counts i j List.tail s
  have capN := onQueue_capN i i List.tail s
  generalize hv : s.onQueue i List.tail = v at *
  obtain ⟨ascu, aaqu, aclosures, ajar, asegs, anbrs, -, -, ahld, amtp, -⟩ := addUnmatched_keeps u v
  have aunmatched := addUnmatched_unmatched u v
  have amoves := (addUnmatched_crossing u v).1
  generalize v.addUnmatched u = w at *
  obtain ⟨xscu, xaqu, xclosures, xxu, xjar, xnbrs, -, -, xhld, -⟩ := countX_keeps i w
  have wseg : ∀ j, w.seg j = v.seg j := fun j => by rw [State.seg, asegs, State.seg]
  have wflagged : w.flagged .countInconsistent = s.flagged .countInconsistent := by rw [State.flagged, amtp, mtp, State.flagged]
  have queue : (w.countX i).queue = v.queue := funext fun j => by rw [State.queue, xaqu, aaqu, State.queue]
  obtain ⟨e', x', r', occ', unsure'⟩ := counts i
  have tested := countX_tested i w
  rw [wseg, occ', r'] at tested
  obtain ⟨x, r, e⟩ := countX_counts i i w
  rw [if_pos rfl, wseg] at x
  rw [wseg] at e
  have xcapN : ((w.countX i).seg i).capN = (w.seg i).capN := by
    unfold State.countX
    dsimp only
    rw [(evaluate_counts _ _ _).2.2.2.2.2.2.2.2.2.2.1, (takeView_counts _ _ _ _).2.2.2.2.2.2.2.2.1, seg_modSeg_same]
  exact
    { ids := fun j => by rw [queue, ids], sends := by rw [xaqu, aaqu, sends], moves := by rw [xxu, amoves, moves]
      unmatched := by rw [xxu, aunmatched, unmatched, hu], cfg := congrArg Scu.cfg (xscu.trans (ascu.trans scu))
      capN := by rw [xcapN, wseg, capN], x := by rw [x, x'], e := by rw [e, e']
      r := fun j => by rw [(countX_counts i j w).2.1, wseg, (counts j).2.2.1]
      tested := tested.before (congrArg Scu.cfg (ascu.trans scu)) (by rw [wseg, capN]) (by rw [wseg, unsure']) wflagged
      scu := xscu.trans (ascu.trans scu), hld := xhld.trans (ahld.trans hld), closures := xclosures.trans (aclosures.trans closures)
      nbrs := xnbrs.trans (anbrs.trans nbrs), jar := by rw [hv]; exact xjar.trans ajar, queue := by rw [hv]; exact queue }

theorem acts_passed {i : Arm} {s : State} (h : s.matchesNone i) : Acts s.granting s (s.passed i) :=
  ((Acts.of_act (.pass i (oldestGranted_of_moves h))).aside (aside_addUnmatched _ _)).aside (aside_countX _ _)

/-- The laws hold of the state in which the head has passed. -/
theorem passed_laws {i : Arm} {s : State} (h : s.matchesNone i) (crossing : CrossingLaw s) (law : QueueLaw s) (grants : GrantLaw s) :
    CrossingLaw (s.passed i) ∧ QueueLaw (s.passed i) ∧ GrantLaw (s.passed i) :=
  (acts_passed h).keeps (I := fun u => CrossingLaw u ∧ QueueLaw u ∧ GrantLaw u)
    (fun u v act hu => ⟨act.keeps_crossingLaw _ u v hu.1, act.keeps_queueLaw _ u v hu.2.1, act.keeps_grantLaw _ u v hu.2.1 hu.2.2⟩)
    ⟨crossing, law, grants⟩

/-- Hold entry after the head has passed does to the grants what it does before: the head holds none. -/
theorem grantsHeld_of_passed {i : Arm} {s t : State} (h : s.matchesNone i) (moves' : s.part.moves)
    (held : CrossingLaw (s.passed i) → QueueLaw (s.passed i) → GrantLaw (s.passed i) → GrantsHeld (s.passed i) t)
    (crossing : CrossingLaw s) (law : QueueLaw s) (grants : GrantLaw s) : GrantsHeld s t := by
  obtain ⟨crossing', law', grants'⟩ := passed_laws h crossing law grants
  have done := passed_does i s
  refine (held crossing' law' grants').of_granted grants grants' done.cfg (fun k => by rw [State.move, done.moves, State.move])
    done.r fun j c hc granted => ?_
  obtain ⟨m, hm, e, he, holds⟩ := grants.2.2.2.1 j c hc granted
  have other : j ≠ i := by
    rintro rfl
    have none' := oldestGranted_of_moves h moves'
    have found : (m.carriers.find? fun e => e.status.isGranted).isSome = true :=
      List.find?_isSome.2 ⟨e, he, (Bool.and_eq_true_iff.1 holds).2⟩
    rw [State.oldestGranted, hm, Option.bind_some, Option.map_eq_none_iff] at none'
    rw [none'] at found
    cases found
  rw [done.queue, (onQueue_queues law i List.tail).1 j other]
  exact hc

/-- The designation for the head ends when the head passes (R85). -/
theorem passed_endsDesignation {i : Arm} {s : State} {o : Overdue} (law : QueueLaw s) (grants : GrantLaw s)
    (ho : s.jar.overdue = some o) (here : o.arrival = i) : (s.passed i).jar.overdue = none := by
  rw [(passed_does i s).jar]
  refine (onQueue_ended ho fun h hh ⟨hid, _⟩ => ?_).overdue
  rw [if_pos here.symm] at hh
  obtain ⟨h', head, hid', -⟩ := law.2 o ho
  obtain ⟨rest, hq⟩ := List.head?_eq_some_iff.1 (show (s.queue o.arrival).head? = some h' from head)
  rw [here] at hq
  rw [hq] at hh
  have single := grants.1 i
  rw [hq, List.map_cons, List.nodup_cons] at single
  refine single.1 ?_
  rw [hid', ← hid]
  exact List.mem_map_of_mem (List.mem_of_mem_head? (Option.mem_def.2 hh))

/-- A designation for the head of another arm stands on (R85). -/
theorem passed_sparesDesignation {i : Arm} {s : State} {o : Overdue} (law : QueueLaw s) (ho : s.jar.overdue = some o)
    (elsewhere : o.arrival ≠ i) : (s.passed i).jar.overdue = some o := by
  rw [(passed_does i s).jar, (onQueue_spared fun o' ho' => ?_).1, ho]
  obtain rfl := Option.some.inj (ho.symm.trans ho')
  obtain ⟨h, head, stands⟩ := law.2 o ho
  exact ⟨h, by rw [if_neg (Ne.symm elsewhere)]; exact head, stands⟩

end Sys2Proof.Machine

/-! ## The activation of an entry detector without a grant -/

namespace Sys2Proof.Machine

theorem entChanged_eq (i : Arm) (s : State) : s.entChanged i = { s with
    xu := { s.xu with ent := s.xu.ent.set i (s.xu.ent.get i).change }
    scu := { s.scu with crossingQuiet := if s.scu.crossingQuiet.isRunning = true then .running 0 else s.scu.crossingQuiet } } :=
  detectorEvent_eq _

/-- The view taken by an entry stands under what follows it: where it fails its test the end is unsure, and where it passes,
hold entry does not make it fail (R96). -/
theorem ViewsStay.tested {i : Arm} {v : Int} {r : Nat} {s u t : State} (tested : ViewTested i v r s u) (h : ViewsStay u t)
    (cfg : u.cfg = s.cfg) (capN : (u.seg i).capN = (s.seg i).capN) (ur : (u.seg i).r = r) :
    (t.seg i).occ = min v.toNat 15 ∧ ((t.seg i).unsure = true ↔ (s.seg i).unsure = true ∨ s.viewFails i v r)
    ∧ (s.viewFails i v r → t.flagged .countInconsistent = true) := by
  obtain ⟨occ, unsure, flagged⟩ := tested
  have small : (u.seg i).occ ≤ 15 := by omega
  refine ⟨(h.occ i small).trans occ, ⟨fun raised => ?_, fun cause => h.unsure i (unsure.2 cause)⟩,
    fun fails => h.flagged (flagged.2 (.inr fails))⟩
  by_cases fails : s.viewFails i v r
  · exact .inr fails
  · have passes : ¬ u.viewFails i (u.seg i).occ (u.seg i).r := by
      unfold State.viewFails at *
      rw [effCapacity_congr cfg capN, role_congr cfg, occ, ur]
      split at fails
      · next far =>
        rw [if_pos far]
        omega
      · next near =>
        rw [if_neg near]
        omega
    rw [h.passes i small passes] at raised
    exact unsure.1 raised

theorem flagged_finish (old t : State) (k : EventKind) : (State.finish old t).flagged k = t.flagged k := by
  rw [State.flagged, (finish_keeps old t).2.2.2.2.2.2.1, State.flagged]

/-- Settles O31. -/
theorem unmatchedEntry : Obligations.UnmatchedEntry := by
  intro i s released working present idle unmatched
  have does := does_changeEnt released working present
  have changed := entChanged_eq i s
  have none' : (s.entChanged i).matchesNone i := by
    rw [changed]
    exact unmatched
  rw [changeEnt_active idle, entryActivation_unmatched none', Does] at does
  have passed := passed_does i (s.entChanged i)
  have raised := unauthorisedEntry_raises ((s.entChanged i).passed i)
  have law : QueueLaw s → QueueLaw (s.entChanged i) := fun h => by rw [changed]; exact h
  have grants : GrantLaw s → GrantLaw (s.entChanged i) := fun h => by rw [changed]; exact h
  have crossing : CrossingLaw s → CrossingLaw (s.entChanged i) := fun h => by rw [changed]; exact h
  have overdue : (s.entChanged i).jar.overdue = s.jar.overdue := by rw [changed]
  have part : ((s.entChanged i).passed i).part = s.part := by
    rw [State.part, passed.scu, changed]
    rfl
  have held : ((s.entChanged i).passed i).held = s.held := by
    rw [State.held, passed.hld, changed]
    rfl
  have forCarrier : ((s.entChanged i).passed i).heldForCarrier = s.heldForCarrier := by
    rw [State.heldForCarrier, passed.hld, changed]
    rfl
  have calm : s.part ≠ .running ∨ s.held = true → ((s.entChanged i).passed i).part ≠ .running
      ∨ ((s.entChanged i).passed i).held = true := fun h => by rwa [part, held]
  obtain ⟨scu, aqu, closures, xu, nbrs, wkp, -⟩ := finish_keeps s ((s.entChanged i).passed i).unauthorisedEntry
  obtain ⟨toverdue, -, -, -, -, overrun, unauthorised, operator⟩ := finish_causes s ((s.entChanged i).passed i).unauthorisedEntry
  have counts := finish_counts s ((s.entChanged i).passed i).unauthorisedEntry
  have due := finish_due s ((s.entChanged i).passed i).unauthorisedEntry
  have flagged := flagged_finish s ((s.entChanged i).passed i).unauthorisedEntry
  have seg := finish_seg s ((s.entChanged i).passed i).unauthorisedEntry
  generalize hu : ((s.entChanged i).passed i).unauthorisedEntry = u at *
  generalize State.finish s u = t at *
  have viewTested : ViewTested i ((s.seg i).occ - 1) (s.seg i).r s ((s.entChanged i).passed i) := by
    have tested := passed.tested
    rw [changed] at tested ⊢
    exact tested.before rfl rfl rfl rfl
  obtain ⟨occ, unsure, fails⟩ := raised.views.tested viewTested (passed.cfg.trans (by rw [changed]; rfl))
    (passed.capN.trans (by rw [changed]; rfl)) ((passed.r i).trans (by rw [changed]; rfl))
  have queueIds : ∀ j, (((s.entChanged i).passed i).queue j).map Carrier.id
      = if i = j then (s.queue i).tail.map Carrier.id else (s.queue j).map Carrier.id := fun j => by
    rw [passed.ids, changed]
    rfl
  refine ⟨t, does, (flagged _).trans raised.flagged, ?_, ?_, ?_, ?_, ⟨?_, ?_, fun h => (flagged _).trans (fails h), fun h => ?_⟩,
    fun hq hg o ho => ⟨fun here => ?_, fun elsewhere h => ?_⟩, fun running => ?_, fun running unheld k => ?_,
    fun running unheld => ?_, fun elsewhere => ?_, fun h => ⟨?_, ?_⟩, ?_, ?_, ?_, ?_, ?_⟩
  · rw [State.queue, aqu]
    exact (raised.ids i).trans ((queueIds i).trans (if_pos rfl))
  · rw [xu, raised.unmatched, passed.unmatched, changed]
    rfl
  · rw [(counts i).2.1, raised.views.x, passed.x, changed]
    rfl
  · rw [(counts i).1, raised.views.e, passed.e, changed]
    rfl
  · rw [seg]
    exact occ
  · rw [seg]
    exact unsure
  · obtain ⟨segs, -, -, -, flag⟩ := raised.calm (calm h)
    have same : u.seg i = ((s.entChanged i).passed i).seg i := by rw [State.seg, segs, State.seg]
    refine viewTested.after ?_ ?_ ((flagged _).trans flag)
    · rw [seg, ← same]
    · rw [seg, ← same]
  · have ended := passed_endsDesignation (law hq) (grants hg) (overdue.trans ho) here
    rw [toverdue]
    by_cases h : s.part ≠ .running ∨ s.held = true
    · obtain ⟨-, jar, -⟩ := raised.calm (calm h)
      rw [jar, ended]
    · simp only [not_or, not_not, Bool.not_eq_true] at h
      exact (raised.entered (part.trans h.1) (held.trans h.2)).1
  · obtain ⟨-, jar, -⟩ := raised.calm (calm h)
    rw [toverdue, jar]
    exact passed_sparesDesignation (law hq) (overdue.trans ho) elsewhere
  · have cause := unauthorised.trans (raised.cause (part.trans running))
    refine ⟨cause, ?_⟩
    simp [State.beacon, State.held, cause]
  · rw [State.cell, xu]
    exact raised.closed (part.trans running) (forCarrier.trans unheld) k
  · obtain ⟨ended, idle', closed, grantsHeld, sends⟩ := raised.entered (part.trans running) (held.trans unheld)
    refine ⟨toverdue.trans ended, ?_, by rw [wkp, closed], fun hc hq hg => ?_, fun j => ?_⟩
    · have granting : u.granting = false := by
        simp [State.granting, State.held, raised.cause (part.trans running)]
      rw [due, idle', granting]
      rfl
    · have moves : (s.entChanged i).part.moves := by
        rw [changed]
        exact .inl running
      have done := grantsHeld_of_passed none' moves grantsHeld (crossing hc) (law hq) (grants hg)
      rw [changed] at done
      refine GrantsHeld.of_outcome (s := s) (t := u) done (fun k => ?_) (fun k => ?_) fun k => ?_
      · rw [State.move, xu, State.move]
      · rw [(counts k).2.2.1]
      · rw [State.queue, aqu, State.queue]
    · rw [aqu, sends, passed.sends, changed]
      refine withClearances_congr ?_ _
      rw [← changed, queueIds]
      by_cases e : i = j
      · rw [if_pos e, if_pos e.symm, e]
      · rw [if_neg e, if_neg (Ne.symm e)]
  · rw [unauthorised, raised.kept (by rw [part]; exact elsewhere), passed.hld, changed]
  · rw [aqu, (raised.calm (calm h)).2.2.1, passed.sends, changed]
  · rw [xu, (raised.calm (calm h)).2.2.2.1, passed.moves, changed]
  · rw [overrun, raised.overrun, passed.hld, changed]
  · rw [operator, raised.operator, passed.hld, changed]
  · rw [closures, raised.closures, passed.closures, changed]
  · rw [nbrs, raised.nbrs, passed.nbrs, changed]
  · rw [State.part, scu, raised.scu, ← State.part, part]

end Sys2Proof.Machine

/-! ## Start window and clear timer -/

namespace Sys2Proof.Machine

theorem mapEntries_eq {s : State} {i : Arm} {m : Movement} (move : s.move i = some m) (f : Entry → Entry) :
    s.mapEntries i f = { s with xu := { s.xu with
      moves := s.xu.moves.set i (some { m with carriers := m.carriers.map f }) } } := by
  unfold State.mapEntries
  rw [move]
  rfl

/-- The start window of a GRANTED entry expires (R68, R69). -/
theorem does_startWindowExpiry {id : CarrierId} {i : Arm} {m : Movement} {s : State} (released : s.scu.rstHeld = false)
    (found : s.grantOf id = some i) (move : s.move i = some m) (runs : m.carriers.any (Entry.inStartWindow id) = true) :
    Does (.startWindowExpiry id) s
      (if s.entryCommitted i id = true then s.mapEntries i (Entry.deferLapse id) else s.lapse id) := by
  show Host.Outcome.next (s.event _) = _
  rw [event_of_released released, found]
  dsimp only
  rw [move]
  dsimp only
  rw [if_pos runs]

/-- The clear timer of a CROSSING entry expires (R71). -/
theorem does_crossingStall {id : CarrierId} {i : Arm} {m : Movement} {s : State} (released : s.scu.rstHeld = false)
    (found : s.crossingOf id = some i) (move : s.move i = some m) (runs : m.carriers.any (Entry.inClearTime id) = true) :
    Does (.crossingStall id) s ((s.mapEntries i (Entry.stall id)).raise .crossingStall) := by
  show Host.Outcome.next (s.event _) = _
  rw [event_of_released released, found]
  dsimp only
  rw [move]
  dsimp only
  rw [if_pos runs]

theorem entryCommitted_eq {s : State} {i : Arm} {id : CarrierId} {c : Carrier} (record : s.recordOn i id = some c) :
    s.entryCommitted i id = c.committed s.cfg := by
  rw [State.entryCommitted, record]

/-- Settles O35. -/
theorem startWindowAndClearTime : Obligations.StartWindowAndClearTime := by
  intro id i m s released move
  refine ⟨fun spares c found runs queued record => ?_, fun found runs => ?_⟩
  · have does := does_startWindowExpiry released found move runs
    rw [entryCommitted_eq record] at does
    refine ⟨fun committed => ?_, fun free => ?_⟩
    · rw [if_pos committed, mapEntries_eq move] at does
      exact does
    · rw [if_neg (by simp [free])] at does
      obtain ⟨lapsed, flagged⟩ := lapse_does queued spares
      have done := lapsed.finish s
      obtain ⟨moves, -, reserved, -, unmatched, -, -, -, aqu, -⟩ := withdrawGrant_does found move
      obtain ⟨scu, -, closures, nbrs, -⟩ := withdrawGrant_keeps id s
      have queue : ∀ j, (s.withdrawGrant id).queue j = s.queue j := fun j => by rw [State.queue, aqu, State.queue]
      have moved : ∀ j, (State.finish s (s.lapse id)).move j = (s.withdrawGrant id).move j := fun j => by
        rw [State.move, done.xu, State.move]
      refine ⟨_, does, (flagged_finish _ _ _).trans flagged, ?_, ?_, ?_, ?_, fun j hj => ⟨?_, ?_⟩, ?_, ?_, ?_, ?_⟩
      · rw [done.record, State.recordOn, queue, ← State.recordOn, record]
        rfl
      · rw [moved, moves, if_pos rfl]
        rfl
      · rw [done.reserved, reserved, if_pos rfl]
      · rw [done.sends, aqu]
      · rw [done.queues j hj, queue]
      · rw [moved, moves, if_neg (Ne.symm hj)]
      · rw [done.xu, unmatched]
      · rw [done.scu, scu]
      · rw [done.closures, closures]
      · rw [done.nbrs, nbrs]
  · have does := does_crossingStall released found move runs
    rw [mapEntries_eq move] at does
    exact does

end Sys2Proof.Machine

/-! ## Restarts and silence of a neighbour -/

namespace Sys2Proof.Machine

theorem nbr_modNbr (i j : Arm) (f : Neighbour → Neighbour) (s : State) :
    (s.modNbr i f).nbr j = if i = j then f (s.nbr i) else s.nbr j := Quad.get_set _ _ _ _

theorem nbr_modNbr_same (i : Arm) (f : Neighbour → Neighbour) (s : State) : (s.modNbr i f).nbr i = f (s.nbr i) := by
  rw [nbr_modNbr, if_pos rfl]

theorem nbr_modNbr_other {i j : Arm} (h : j ≠ i) (f : Neighbour → Neighbour) (s : State) : (s.modNbr i f).nbr j = s.nbr j := by
  rw [nbr_modNbr, if_neg (Ne.symm h)]

theorem isolated_isolate (i : Arm) (s : State) : ((s.isolate i).seg i).isolated = true := by
  rw [State.isolate, seg_modSeg_same]

theorem working_iff {p : PartState} : p.working = true ↔ p = .listening ∨ p.reporting = true := by
  cases p <;> decide

/-- The record of a neighbour whose restart a REPORT REQUEST shows (R134). -/
def Neighbour.restarted (epoch : Byte) (n : Neighbour) : Neighbour :=
  { n.noteRestart epoch with state := .awaited, silence := 0, late := false }

/-- The record of a neighbour that has sent a REPORT REQUEST (R133, R134). -/
def Neighbour.asked (epoch : Byte) (n : Neighbour) : Neighbour :=
  if n.epoch = none then { n with epoch := some epoch } else n.restarted epoch

/-- What a row of a neighbour's record leaves alone. -/
structure NeighbourRow (i : Arm) (n : Neighbour) (s t : State) : Prop where
  record : t.nbr i = n
  others : ∀ j, j ≠ i → t.nbr j = s.nbr j
  scu : t.scu = s.scu
  aqu : t.aqu = s.aqu
  closures : t.closures = s.closures
  xu : t.xu = s.xu
  wkp : t.wkp = s.wkp

theorem neighbourRow_modNbr (i : Arm) (f : Neighbour → Neighbour) (s : State) : NeighbourRow i (f (s.nbr i)) s (s.modNbr i f) :=
  ⟨nbr_modNbr_same i f s, fun _ hj => nbr_modNbr_other hj f s, rfl, rfl, rfl, rfl, rfl⟩

theorem NeighbourRow.trans {i : Arm} {n n' : Neighbour} {s t u : State} (h : NeighbourRow i n s t) (h' : NeighbourRow i n' t u) :
    NeighbourRow i n' s u :=
  ⟨h'.record, fun j hj => (h'.others j hj).trans (h.others j hj), h'.scu.trans h.scu, h'.aqu.trans h.aqu,
    h'.closures.trans h.closures, h'.xu.trans h.xu, h'.wkp.trans h.wkp⟩

/-- What comes behind and touches only segment ends, the floor line and the port. -/
theorem NeighbourRow.after {i : Arm} {n : Neighbour} {s t u : State} (h : NeighbourRow i n s t) (scu : u.scu = t.scu)
    (aqu : u.aqu = t.aqu) (closures : u.closures = t.closures) (xu : u.xu = t.xu) (nbrs : u.nbrs = t.nbrs) (wkp : u.wkp = t.wkp) :
    NeighbourRow i n s u := by
  have nbr : ∀ j, u.nbr j = t.nbr j := fun j => by rw [State.nbr, nbrs, State.nbr]
  exact ⟨(nbr i).trans h.record, fun j hj => (nbr j).trans (h.others j hj), scu.trans h.scu, aqu.trans h.aqu,
    closures.trans h.closures, xu.trans h.xu, wkp.trans h.wkp⟩

theorem NeighbourRow.finish {i : Arm} {n : Neighbour} {s t : State} (h : NeighbourRow i n s t) (old : State) :
    NeighbourRow i n s (State.finish old t) := by
  obtain ⟨scu, aqu, closures, xu, nbrs, wkp, -⟩ := finish_keeps old t
  exact h.after scu aqu closures xu nbrs wkp

/-! ### A REPORT REQUEST -/

/-- The record and the end after a REPORT REQUEST, before the change report it schedules (R133, R134). -/
def State.requested (i : Arm) (epoch : Byte) (s : State) : State :=
  if (s.nbr i).epoch = none then s.modNbr i fun n => { n with epoch := some epoch }
  else ((s.modNbr i (Neighbour.restarted epoch)).raise .neighbourRestart).isolate i

theorem takeRequest_eq (i : Arm) (epoch : Byte) (s : State) : s.takeRequest i epoch =
    if s.part.reporting then (s.requested i epoch).scheduleChange else s.requested i epoch := by
  unfold State.takeRequest State.requested
  cases (s.nbr i).epoch with
  | none => rfl
  | some old => rfl

theorem requested_row (i : Arm) (epoch : Byte) (s : State) : NeighbourRow i ((s.nbr i).asked epoch) s
    (s.requested i epoch) := by
  unfold State.requested Neighbour.asked
  split
  · exact neighbourRow_modNbr i (fun n => { n with epoch := some epoch }) s
  · exact (neighbourRow_modNbr i (Neighbour.restarted epoch) s).after rfl rfl rfl rfl rfl rfl

theorem takeRequest_row (i : Arm) (epoch : Byte) (s : State) : NeighbourRow i ((s.nbr i).asked epoch) s
    (s.takeRequest i epoch) := by
  rw [takeRequest_eq]
  split
  · exact (requested_row i epoch s).after rfl rfl rfl rfl rfl rfl
  · exact requested_row i epoch s

theorem takeRequest_segs (i : Arm) (epoch : Byte) (s : State) : (s.takeRequest i epoch).segs = (s.requested i epoch).segs
    ∧ (s.takeRequest i epoch).mtp = (s.requested i epoch).mtp := by
  rw [takeRequest_eq]
  split <;> exact ⟨rfl, rfl⟩

theorem takeRequest_changeWaiting {i : Arm} {epoch : Byte} {s : State} (reports : s.part.reporting = true) :
    (s.takeRequest i epoch).fli.tx.changeWaiting = true := by
  rw [takeRequest_eq, if_pos reports]
  rfl

/-- A neighbour's good frame is handed to NBM (R127). -/
theorem sortFrame_neighbour {s : State} {sender : Byte} {own : Bool} {i : Arm} (foreign : sender.toNat ≠ s.cfg.nodeAddress)
    (neighbour : s.armOfNeighbour sender.toNat = some i) (take : Arm → State → State) :
    s.sortFrame sender own take = take i s := by
  unfold State.sortFrame
  rw [if_neg foreign, neighbour]

theorem does_reportRequest {s : State} {f : ReportRequest} {own : Bool} {i : Arm} (released : s.scu.rstHeld = false)
    (working : s.part.working = true) (foreign : f.sender.toNat ≠ s.cfg.nodeAddress)
    (neighbour : s.armOfNeighbour f.sender.toNat = some i) (epoch : f.epoch ≠ 0) :
    Does (.reportRequestReceived f own) s ((s.modRx (Receiver.handOver (.request f own))).takeRequest i f.epoch) := by
  show Host.Outcome.next (s.event _) = _
  rw [event_of_released released, if_pos working, sortFrame_neighbour (by exact foreign) (by exact neighbour)]
  unfold State.nbmRequest
  rw [if_neg epoch]

/-! ### Silence -/

/-- The record of a neighbour with the silence window reached (R132). -/
def State.windowReached (i : Arm) (s : State) : State :=
  s.modNbr i fun n => { n with silence := max n.silence (silenceWindow s.cfg) }

theorem windowReached_nbr (i : Arm) (s : State) : (s.windowReached i).nbr i =
    { s.nbr i with silence := max (s.nbr i).silence (silenceWindow s.cfg) } := nbr_modNbr_same i _ s

theorem windowReached_row (i : Arm) (s : State) :
    NeighbourRow i { s.nbr i with silence := max (s.nbr i).silence (silenceWindow s.cfg) } s (s.windowReached i) :=
  neighbourRow_modNbr i (fun n => { n with silence := max n.silence (silenceWindow s.cfg) }) s

theorem neighbourSilence_live {s : State} {i : Arm} (live : (s.nbr i).state = .live) : s.neighbourSilence i =
    (((s.windowReached i).modNbr i fun n => { n with state := .silent }).raise .neighbourSilent).isolate i := by
  have state : ((s.windowReached i).nbr i).state = .live := by rw [windowReached_nbr, live]
  unfold State.neighbourSilence
  dsimp only
  rw [← State.windowReached, state]

theorem neighbourSilence_late {s : State} {i : Arm} (awaited : (s.nbr i).state = .awaited) : s.neighbourSilence i =
    if (s.nbr i).late then s.windowReached i
    else ((s.windowReached i).modNbr i fun n => { n with late := true }).raise .neighbourSilent := by
  have state : ((s.windowReached i).nbr i).state = .awaited := by rw [windowReached_nbr, awaited]
  have late : ((s.windowReached i).nbr i).late = (s.nbr i).late := by rw [windowReached_nbr]
  unfold State.neighbourSilence
  dsimp only
  rw [← State.windowReached, state, ← late]

theorem neighbourSilence_silent {s : State} {i : Arm} (silent : (s.nbr i).state = .silent) :
    s.neighbourSilence i = s.windowReached i := by
  have state : ((s.windowReached i).nbr i).state = .silent := by rw [windowReached_nbr, silent]
  unfold State.neighbourSilence
  dsimp only
  rw [← State.windowReached, state]

theorem does_neighbourSilent {s : State} {i : Arm} (released : s.scu.rstHeld = false) (working : s.part.working = true)
    (neighbour : s.hasNeighbour i = true) : Does (.neighbourSilent i) s (s.neighbourSilence i) :=
  exec_event_if (p := fun s => s.part.working && s.hasNeighbour i) released rfl (by simp [working, neighbour]) rfl

/-- Where the row has no more to say, only the silence time has moved (R132). -/
theorem neighbourSilence_again {s : State} {i : Arm}
    (again : (s.nbr i).state = .silent ∨ ((s.nbr i).state = .awaited ∧ (s.nbr i).late = true)) :
    s.neighbourSilence i = s.windowReached i := by
  rcases again with silent | ⟨awaited, late⟩
  · exact neighbourSilence_silent silent
  · rw [neighbourSilence_late awaited, if_pos late]

/-- Settles O46. -/
theorem neighbourRestartAndSilence : Obligations.NeighbourRestartAndSilence := by
  intro s i released working
  refine ⟨fun f own foreign neighbour epoch => ?_, fun neighbour => ?_⟩
  · have does := does_reportRequest (own := own) released working foreign neighbour epoch
    have row := (takeRequest_row i f.epoch (s.modRx (Receiver.handOver (.request f own)))).finish s
    obtain ⟨segs, mtp⟩ := takeRequest_segs i f.epoch (s.modRx (Receiver.handOver (.request f own)))
    have waiting := finish_changeWaiting s ((s.modRx (Receiver.handOver (.request f own))).takeRequest i f.epoch)
    have seg := finish_seg s ((s.modRx (Receiver.handOver (.request f own))).takeRequest i f.epoch) i
    have tmtp := (finish_keeps s ((s.modRx (Receiver.handOver (.request f own))).takeRequest i f.epoch)).2.2.2.2.2.2.1
    have record := row.record
    refine ⟨_, does, ?_, fun none' => ⟨?_, ?_⟩, fun some' => ⟨?_, ?_, ?_⟩, fun listens => ?_, row.others, row.scu, row.aqu,
      row.closures, row.xu, row.wkp⟩
    · rw [record, Neighbour.asked]
      split <;> rfl
    · rw [record, Neighbour.asked, if_pos (by exact none')]
      rfl
    · rw [tmtp, mtp, State.requested, if_pos (by exact none')]
      rfl
    · rw [record, Neighbour.asked, if_neg (by exact some')]
      rfl
    · rw [seg, State.seg, segs, State.requested, if_neg (by exact some')]
      exact isolated_isolate i _
    · rw [State.flagged, tmtp, mtp, State.requested, if_neg (by exact some')]
      exact (flagged_raise _ _ _).trans (by simp)
    · have reports : s.part.reporting = true := (working_iff.1 working).resolve_left listens
      rw [waiting, takeRequest_changeWaiting (by exact reports), Bool.true_or]
  · have does := does_neighbourSilent released working neighbour
    have reached := windowReached_row i s
    cases state : (s.nbr i).state with
    | live =>
      rw [neighbourSilence_live state] at does
      have row := (((reached.trans (neighbourRow_modNbr i (fun n => { n with state := .silent }) _)).after
        (u := (((s.windowReached i).modNbr i fun n => { n with state := .silent }).raise .neighbourSilent).isolate i)
        rfl rfl rfl rfl rfl rfl)).finish s
      have record := row.record
      rw [windowReached_nbr] at record
      have seg := finish_seg s ((((s.windowReached i).modNbr i fun n => { n with state := .silent }).raise .neighbourSilent).isolate i) i
      refine ⟨_, does, by rw [record], fun _ => ⟨by rw [record], ?_, ?_⟩, nofun, nofun, fun h => ?_, row.others, row.scu, row.aqu,
        row.closures, row.xu, row.wkp⟩
      · rw [seg]
        exact isolated_isolate i _
      · rw [flagged_finish]
        exact (flagged_raise _ _ _).trans (by simp)
      · rcases h with h | ⟨h, -⟩
        · cases h
        · cases h
    | awaited =>
      cases late : (s.nbr i).late with
      | true =>
        rw [neighbourSilence_again (.inr ⟨state, late⟩)] at does
        have row := reached.finish s
        have record := row.record
        refine ⟨_, does, by rw [record], nofun, fun _ => ⟨by rw [record]; exact state, by rw [record]; exact late⟩, nofun, fun _ => ⟨?_, ?_⟩,
          row.others, row.scu, row.aqu, row.closures, row.xu, row.wkp⟩
        · rw [(finish_keeps _ _).2.2.2.2.2.2.1]
          rfl
        · rw [record]
          exact state
      | false =>
        rw [neighbourSilence_late state, if_neg (by simp [late])] at does
        have row := (((reached.trans (neighbourRow_modNbr i (fun n => { n with late := true }) _)).after
          (u := ((s.windowReached i).modNbr i fun n => { n with late := true }).raise .neighbourSilent) rfl rfl rfl rfl rfl rfl)).finish s
        have record := row.record
        rw [windowReached_nbr] at record
        refine ⟨_, does, by rw [record], nofun, fun _ => ⟨by rw [record]; exact state, by rw [record]⟩, fun _ _ => ?_, fun h => ?_, row.others,
          row.scu, row.aqu, row.closures, row.xu, row.wkp⟩
        · rw [flagged_finish]
          exact (flagged_raise _ _ _).trans (by simp)
        · rcases h with h | ⟨-, h⟩
          · cases h
          · cases h
    | silent =>
      rw [neighbourSilence_again (.inl state)] at does
      have row := reached.finish s
      have record := row.record
      refine ⟨_, does, by rw [record], nofun, nofun, nofun, fun _ => ⟨?_, by rw [record]; exact state⟩, row.others, row.scu, row.aqu,
        row.closures, row.xu, row.wkp⟩
      rw [(finish_keeps _ _).2.2.2.2.2.2.1]
      rfl

end Sys2Proof.Machine

/-! ## STOP, RELEASE and the settle timer -/

namespace Sys2Proof.Machine

/-! ### The release of the junction -/

/-- What the release of the junction does in RUNNING (R159). -/
structure JunctionReleased (s t : State) : Prop where
  held : t.held = false
  due : t.jar.due = true
  cells : ∀ k, t.cell k = if s.cell k = .emergency then .free else s.cell k
  wkp : t.wkp = if s.walkWorking = true then { s.wkp with interval := .running 0 } else s.wkp
  moves : t.xu.moves = s.xu.moves
  unmatched : t.xu.unmatched = s.xu.unmatched
  scu : t.scu = s.scu
  aqu : t.aqu = s.aqu
  closures : t.closures = s.closures
  nbrs : t.nbrs = s.nbrs

theorem fromEmergency_eq (c : Cell) : c.fromEmergency = if c = .emergency then .free else c := by
  cases c <;> simp [Cell.fromEmergency]

/-- The junction is released in a state that is `s` but for the hold causes. -/
theorem releaseHold_releases {s : State} {h : Hld} (running : s.part = .running)
    (empty : ({ s with hld := h } : State).held = false) :
    JunctionReleased s (State.releaseHold { s with hld := h }) ∧ (State.releaseHold { s with hld := h }).mtp = s.mtp := by
  have granting : ({ s with hld := h } : State).granting = true := granting_iff.2 ⟨running, empty⟩
  have eq : State.releaseHold { s with hld := h }
      = ((({ s with hld := h } : State).mapCells Cell.fromEmergency).startInterval).trigger := by
    unfold State.releaseHold
    exact if_pos (by simpa using show ({ s with hld := h } : State).part = .running from running)
  rw [eq, trigger_eq, startInterval_eq]
  refine ⟨{ held := empty, due := ?_, cells := fun k => ?_, wkp := ?_, moves := rfl, unmatched := rfl, scu := rfl, aqu := rfl
            closures := rfl, nbrs := rfl }, rfl⟩
  · show (_ || ({ s with hld := h } : State).granting) = true
    rw [granting, Bool.or_true]
  · exact (cell_mapCells Cell.fromEmergency k { s with hld := h }).trans (fromEmergency_eq _)
  · show ({ s.wkp with interval := if s.walkWorking && ({ s with hld := h } : State).granting then .running 0
      else s.wkp.interval } : Wkp) = _
    rw [granting, Bool.and_true]
    split <;> rfl

theorem JunctionReleased.finish {s t : State} (h : JunctionReleased s t) (old : State) :
    JunctionReleased s (State.finish old t) := by
  obtain ⟨-, -, -, -, -, overrun, unauthorised, operator⟩ := finish_causes old t
  obtain ⟨scu, aqu, closures, xu, nbrs, wkp, -, -, -, -, due, -⟩ := finish_eventEnd old t
  exact
    { held := by
        rw [State.held, overrun, unauthorised, operator]
        exact h.held
      due := due h.due, cells := fun k => by rw [State.cell, xu]; exact h.cells k
      wkp := by rw [(finish_keeps old t).2.2.2.2.2.1]; exact h.wkp
      moves := by rw [xu]; exact h.moves, unmatched := by rw [xu]; exact h.unmatched, scu := scu.trans h.scu, aqu := aqu.trans h.aqu
      closures := closures.trans h.closures, nbrs := nbrs.trans h.nbrs }

theorem JunctionReleased.answered {s t : State} (h : JunctionReleased s t) (r : Response) : JunctionReleased s (t.answered r) :=
  { held := h.held, due := h.due, cells := h.cells, wkp := h.wkp, moves := h.moves, unmatched := h.unmatched, scu := h.scu
    aqu := h.aqu, closures := h.closures, nbrs := h.nbrs }

theorem JunctionReleased.beacon {s t : State} (h : JunctionReleased s t) (running : s.part = .running) : t.beacon = false := by
  rw [State.beacon, h.held, State.part, h.scu, ← State.part, running]
  rfl

/-! ### STOP -/

/-- What STOP leaves (R156, R157, R160). -/
structure Stopped (s t : State) : Prop where
  operator : t.hld.operator = true
  overrun : t.hld.overrun = s.hld.overrun
  unauthorised : t.hld.unauthorised = s.hld.unauthorised
  unmatched : t.xu.unmatched = s.xu.unmatched
  scu : t.scu = s.scu
  closures : t.closures = s.closures
  nbrs : t.nbrs = s.nbrs
  entered : s.held = false → s.part ≠ .faulted → t.jar.overdue = none ∧ t.jar.due = false ∧ t.wkp.state = .closed
    ∧ (∀ k, s.cell k ≠ .emergency → t.cell k ≠ .emergency)
    ∧ (∀ o k, s.jar.overdue = some o → s.cell k = .reserved o.id → t.cell k = .free)
    ∧ (CrossingLaw s → QueueLaw s → GrantLaw s → GrantsHeld s t)
    ∧ ∀ j, t.aqu.sends.get j = withClearances (s.queue j) (s.aqu.sends.get j)
  standing : s.held = true ∨ s.part = .faulted → t.xu = s.xu ∧ t.aqu = s.aqu ∧ t.wkp = s.wkp

theorem holds_or_faulted {p : PartState} (working : p.working = true) : p.holds ∨ p = .faulted := by
  revert working
  cases p <;> simp [PartState.holds, PartState.working]

theorem not_holds_faulted {p : PartState} (faulted : p = .faulted) : ¬ p.holds := by
  rw [faulted]
  simp [PartState.holds]

theorem heldForCarrier_of_unheld {s : State} (unheld : s.held = false) : s.heldForCarrier = false := by
  simp only [State.held, Bool.or_eq_false_iff] at unheld
  rw [State.heldForCarrier, unheld.1.1, unheld.1.2]
  rfl

/-- Where the junction is held or FAULTED, OPERATOR joins the causes and no more (R157). -/
theorem addOperator_standing {s : State} (working : s.part.working = true) (standing : s.held = true ∨ s.part = .faulted) :
    s.addCause .operator = s.modHld (Hld.add .operator) := by
  rcases holds_or_faulted working with holds | faulted
  · have held : s.held = true := standing.resolve_right fun faulted => not_holds_faulted faulted holds
    rw [addCause_held holds held]
    rfl
  · exact addCause_elsewhere (not_holds_faulted faulted) .operator

theorem stop_stops {s : State} (working : s.part.working = true) : Stopped s (s.addCause .operator) := by
  by_cases standing : s.held = true ∨ s.part = .faulted
  · rw [addOperator_standing working standing]
    exact
      { operator := rfl, overrun := rfl, unauthorised := rfl, unmatched := rfl, scu := rfl, closures := rfl, nbrs := rfl
        entered := fun unheld new => absurd standing (by simp [unheld, new]), standing := fun _ => ⟨rfl, rfl, rfl⟩ }
  · obtain ⟨held, new⟩ := not_or.1 standing
    rw [Bool.not_eq_true] at held
    have holds : s.part.holds := (holds_or_faulted working).resolve_right new
    have does := addCause_first_does holds held .operator
    have carrier : (s.modHld (Hld.add .operator)).heldForCarrier = false := heldForCarrier_of_unheld (s := s) held
    rw [carrier] at does
    exact
      { operator := (congrArg Hld.operator does.hld).trans rfl, overrun := (congrArg Hld.overrun does.hld).trans rfl
        unauthorised := (congrArg Hld.unauthorised does.hld).trans rfl, unmatched := does.unmatched, scu := does.scu
        closures := does.closures, nbrs := does.nbrs
        entered := fun _ _ => ⟨does.overdue, does.due, congrArg Wkp.state does.wkp, does.opened rfl, does.unreserved rfl,
          fun hc hq hs => (does.held hc hq hs).of_granted hs hs rfl (fun _ => rfl) (fun _ => rfl) fun _ _ hc _ => hc, does.sends⟩
        standing := fun h => absurd h standing }

theorem Stopped.held {s t : State} (h : Stopped s t) : t.held = true := by
  rw [State.held, h.operator, Bool.or_true]

theorem Stopped.granting {s t : State} (h : Stopped s t) : t.granting = false := by
  rw [State.granting, h.held]
  exact Bool.and_false _

theorem Stopped.answered {s t : State} (h : Stopped s t) (r : Response) : Stopped s (t.answered r) :=
  { operator := h.operator, overrun := h.overrun, unauthorised := h.unauthorised, unmatched := h.unmatched, scu := h.scu
    closures := h.closures, nbrs := h.nbrs, entered := h.entered, standing := h.standing }

theorem Stopped.finish {s t : State} (h : Stopped s t) (old : State) : Stopped s (State.finish old t) := by
  obtain ⟨overdue, -, -, -, -, overrun, unauthorised, operator⟩ := finish_causes old t
  obtain ⟨scu, aqu, closures, xu, nbrs, wkp, -⟩ := finish_keeps old t
  refine
    { operator := operator.trans h.operator, overrun := overrun.trans h.overrun, unauthorised := unauthorised.trans h.unauthorised
      unmatched := by rw [xu]; exact h.unmatched, scu := scu.trans h.scu, closures := closures.trans h.closures
      nbrs := nbrs.trans h.nbrs, entered := fun unheld new => ?_, standing := fun stands => by rw [xu, aqu, wkp]; exact h.standing stands }
  obtain ⟨ended, due, closed, opened, unreserved, grants, sends⟩ := h.entered unheld new
  have cell : ∀ k, (State.finish old t).cell k = t.cell k := fun k => by rw [State.cell, xu, State.cell]
  refine ⟨overdue.trans ended, ?_, by rw [wkp, closed], fun k hk => by rw [cell]; exact opened k hk, fun o k ho hk => by
    rw [cell]; exact unreserved o k ho hk, fun hc hq hs => ?_, fun j => by rw [aqu]; exact sends j⟩
  · rw [finish_due, due, h.granting]
    rfl
  · refine (grants hc hq hs).of_outcome (fun k => ?_) (fun k => ?_) fun k => ?_
    · rw [State.move, xu, State.move]
    · exact (finish_counts old t k).2.2.1
    · rw [State.queue, aqu, State.queue]

theorem does_stop {s : State} (released : s.scu.rstHeld = false) (working : s.part.working = true) :
    Does .stop s ((s.addCause .operator).answered (.ok 0x12)) := by
  have does : Does .stop s _ := does_act (owner := fun s => .ok (s.addCause .operator)) released working rfl
  rwa [settle_ok] at does

/-! ### RELEASE -/

/-- The state with OPERATOR removed from the hold causes. -/
def State.operatorGone (s : State) : State := { s with hld := { s.hld with operator := false } }

theorem does_release {s : State} (released : s.scu.rstHeld = false) (working : s.part.working = true) :
    Does .release s (Verdict.settle 0x13 s.operatorRelease) := does_act (owner := State.operatorRelease) released working rfl

theorem operatorRelease_carrier {s : State} (carrier : s.heldForCarrier = true) :
    s.operatorRelease = .refused .notClear s.operatorGone := if_pos carrier

theorem operatorRelease_operator {s : State} (carrier : s.heldForCarrier = false) (operator : s.hld.operator = true) :
    s.operatorRelease = .ok s.operatorGone.releaseHold :=
  (if_neg (by simp [carrier])).trans (if_pos operator)

theorem operatorRelease_unheld {s : State} (unheld : s.held = false) : s.operatorRelease = .ok s := by
  have operator : s.hld.operator = false := (Bool.or_eq_false_iff.1 unheld).2
  exact (if_neg (by simp [heldForCarrier_of_unheld unheld])).trans (if_neg (by simp [operator]))

theorem releaseHold_elsewhere {s : State} (part : s.part ≠ .running) : s.releaseHold = s := if_neg (by simpa using part)

/-! ### The settle timer -/

/-- The state with the carrier causes removed, the settle timer stopped. -/
def State.carriersGone (s : State) : State :=
  { s with hld := { s.hld with overrun := false, unauthorised := false, settle := .stopped } }

theorem carriersGone_held (s : State) : s.carriersGone.held = s.hld.operator := Bool.false_or _

theorem does_settleTimerExpiry {s : State} (released : s.scu.rstHeld = false) (runs : s.hld.settle.isRunning = true) :
    Does .settleTimerExpiry s (if s.hld.operator = true then s.carriersGone else s.carriersGone.releaseHold) := by
  rw [← carriersGone_held]
  exact exec_event_if (p := fun s => s.hld.settle.isRunning) released rfl runs rfl

/-- Settles O48. -/
theorem stopReleaseAndSettle : Obligations.StopReleaseAndSettle := by
  intro s released working
  refine ⟨fun runs operator => ?_, fun runs operator running => ?_, ?_, fun carrier => ?_, fun unheld => ?_,
    fun carrier operator elsewhere => ?_, fun carrier operator running => ?_⟩
  · have does := does_settleTimerExpiry released runs
    have gone : s.carriersGone
        = { s with hld := { overrun := false, unauthorised := false, operator := true, settle := .stopped } } := by
      rw [← operator]
      rfl
    rwa [if_pos operator, gone] at does
  · have does := does_settleTimerExpiry released runs
    rw [if_neg (by simp [operator])] at does
    obtain ⟨done, mtp⟩ := releaseHold_releases running ((carriersGone_held s).trans operator)
    have t := done.finish s
    refine ⟨_, does, t.held, t.beacon running, t.due, t.cells, t.wkp, t.moves, t.unmatched, t.scu, t.aqu, t.closures, t.nbrs, ?_⟩
    rw [(finish_keeps _ _).2.2.2.2.2.2.1]
    exact mtp
  · have t := ((stop_stops working).answered (.ok 0x12)).finish s
    refine ⟨_, does_stop released working, t.operator, t.overrun, t.unauthorised, ?_, t.granting, ?_, t.entered, t.standing,
      t.unmatched, t.scu, t.closures, t.nbrs⟩
    · rw [State.beacon, t.held, Bool.true_or]
    · rw [(finish_keeps _ _).2.2.2.2.2.2.1]
      rfl
  · have does := does_release released working
    rwa [operatorRelease_carrier carrier] at does
  · have does := does_release released working
    rwa [operatorRelease_unheld unheld] at does
  · have does := does_release released working
    rwa [operatorRelease_operator carrier operator, releaseHold_elsewhere (by exact elsewhere)] at does
  · have does := does_release released working
    rw [operatorRelease_operator carrier operator, settle_ok] at does
    have empty : s.operatorGone.held = false := (Bool.or_false _).trans carrier
    obtain ⟨done, mtp⟩ := releaseHold_releases running empty
    have t := (done.answered (.ok 0x13)).finish s
    refine ⟨_, does, t.held, t.beacon running, t.due, t.cells, t.moves, t.unmatched, ?_, t.scu, t.aqu, t.closures, t.nbrs⟩
    rw [(finish_keeps _ _).2.2.2.2.2.2.1]
    unfold State.answered
    dsimp only
    rw [State.operatorGone, mtp]

end Sys2Proof.Machine

/-! ## What a neighbour's entry changes of a segment end

Every operation on an entry works on one segment end. `EndOnly` says what such an operation leaves alone, `EndStep` adds that
the last-heard fields and the isolated flag stay. -/

namespace Sys2Proof.Machine

/-- The last-heard fields that an entry stores, and the isolated flag, are as they were. -/
structure KeepsHeard (g g' : SegEnd) : Prop where
  isolated : g'.isolated = g.isolated
  eN : g'.eN = g.eN
  xN : g'.xN = g.xN
  rN : g'.rN = g.rN
  demN : g'.demN = g.demN
  capN : g'.capN = g.capN
  limN : g'.limN = g.limN
  limEpN : g'.limEpN = g.limEpN

theorem KeepsHeard.refl (g : SegEnd) : KeepsHeard g g := ⟨rfl, rfl, rfl, rfl, rfl, rfl, rfl, rfl⟩

theorem KeepsHeard.trans {g g' g'' : SegEnd} (h : KeepsHeard g g') (h' : KeepsHeard g' g'') : KeepsHeard g g'' :=
  ⟨h'.isolated.trans h.isolated, h'.eN.trans h.eN, h'.xN.trans h.xN, h'.rN.trans h.rN, h'.demN.trans h.demN,
    h'.capN.trans h.capN, h'.limN.trans h.limN, h'.limEpN.trans h.limEpN⟩

/-- From `s` to `t` nothing has changed but the segment end of arm `i`, without E, X and R, and COUNT_INCONSISTENT. -/
structure EndOnly (i : Arm) (s t : State) : Prop where
  frame : t = { s with segs := t.segs, mtp := t.mtp }
  others : ∀ j, j ≠ i → t.seg j = s.seg j
  flags : ∀ k, k ≠ .countInconsistent → t.flagged k = s.flagged k
  sameE : (t.seg i).e = (s.seg i).e
  sameX : (t.seg i).x = (s.seg i).x
  sameR : (t.seg i).r = (s.seg i).r

/-- An operation of an entry that stores none of it. -/
structure EndStep (i : Arm) (s t : State) : Prop extends EndOnly i s t where
  heard : KeepsHeard (s.seg i) (t.seg i)

theorem EndOnly.refl (i : Arm) (s : State) : EndOnly i s s := ⟨rfl, fun _ _ => rfl, fun _ _ => rfl, rfl, rfl, rfl⟩

theorem EndOnly.trans {i : Arm} {s t u : State} (h : EndOnly i s t) (h' : EndOnly i t u) : EndOnly i s u :=
  ⟨by rw [h'.frame, h.frame], fun j hj => (h'.others j hj).trans (h.others j hj), fun k hk => (h'.flags k hk).trans (h.flags k hk),
    h'.sameE.trans h.sameE, h'.sameX.trans h.sameX, h'.sameR.trans h.sameR⟩

theorem EndStep.refl (i : Arm) (s : State) : EndStep i s s := { EndOnly.refl i s with heard := .refl _ }

theorem EndStep.trans {i : Arm} {s t u : State} (h : EndStep i s t) (h' : EndStep i t u) : EndStep i s u :=
  { h.toEndOnly.trans h'.toEndOnly with heard := h.heard.trans h'.heard }

theorem EndOnly.scu {i : Arm} {s t : State} (h : EndOnly i s t) : t.scu = s.scu := by rw [h.frame]

theorem EndOnly.cfg {i : Arm} {s t : State} (h : EndOnly i s t) : t.cfg = s.cfg := congrArg Scu.cfg h.scu

theorem EndOnly.part {i : Arm} {s t : State} (h : EndOnly i s t) : t.part = s.part := congrArg Scu.part h.scu

theorem EndOnly.role {i : Arm} {s t : State} (h : EndOnly i s t) : t.role i = s.role i := role_congr h.cfg

theorem EndOnly.nbrs {i : Arm} {s t : State} (h : EndOnly i s t) : t.nbrs = s.nbrs := by rw [h.frame]

theorem EndOnly.limitOpen {i : Arm} {s t : State} (h : EndOnly i s t) (g : SegEnd) : t.limitOpen i g = s.limitOpen i g :=
  limitOpen_congr h.cfg h.part i g

theorem endOnly_modSeg (i : Arm) (f : SegEnd → SegEnd) (e : ∀ g, (f g).e = g.e) (x : ∀ g, (f g).x = g.x) (r : ∀ g, (f g).r = g.r)
    (s : State) : EndOnly i s (s.modSeg i f) := by
  have seg := seg_modSeg_same s i f
  exact ⟨rfl, fun j hj => seg_modSeg_other hj s f, fun _ _ => rfl, by rw [seg]; exact e _, by rw [seg]; exact x _,
    by rw [seg]; exact r _⟩

theorem endStep_modSeg (i : Arm) (f : SegEnd → SegEnd) (e : ∀ g, (f g).e = g.e) (x : ∀ g, (f g).x = g.x) (r : ∀ g, (f g).r = g.r)
    (heard : ∀ g, KeepsHeard g (f g)) (s : State) : EndStep i s (s.modSeg i f) := by
  have seg := seg_modSeg_same s i f
  have kept := heard (s.seg i)
  exact
    { endOnly_modSeg i f e x r s with
      heard := by
        rw [seg]
        exact ⟨kept.isolated, kept.eN, kept.xN, kept.rN, kept.demN, kept.capN, kept.limN, kept.limEpN⟩ }

theorem endStep_raise (i : Arm) (s : State) : EndStep i s (s.raise .countInconsistent) :=
  { frame := rfl, others := fun _ _ => rfl, flags := fun k hk => by simp [Ne.symm hk], sameE := rfl, sameX := rfl, sameR := rfl, heard := .refl _ }

/-- A view stored, and the unsure flag set or kept. -/
theorem endStep_view (i : Arm) (occ : Nat) (unsure : SegEnd → Bool) (s : State) :
    EndStep i s (s.modSeg i fun g => { g with occ := occ, unsure := unsure g }) :=
  endStep_modSeg i (fun g => { g with occ := occ, unsure := unsure g }) (fun _ => rfl) (fun _ => rfl) (fun _ => rfl)
    (fun _ => ⟨rfl, rfl, rfl, rfl, rfl, rfl, rfl, rfl⟩) s

theorem endStep_takeView (i : Arm) (v : Int) (s : State) : EndStep i s (s.takeView i v) := by
  unfold State.takeView
  split
  · exact (endStep_view i _ (fun _ => true) s).trans (endStep_raise i _)
  · exact endStep_view i _ SegEnd.unsure s

theorem endStep_steer (n : Nat) (i : Arm) (s : State) : EndStep i s (s.steer n i) := by
  induction n generalizing s with
  | zero => exact .refl i s
  | succ n ih =>
    unfold State.steer
    split
    · exact .refl i s
    · next d _ =>
      refine (endStep_modSeg i (SegEnd.enterDirection d) (fun g => ?_) (fun g => ?_) (fun g => ?_) (fun g => ?_) s).trans (ih _)
      · rw [enterDirection_eq]
      · rw [enterDirection_eq]
      · rw [enterDirection_eq]
      · rw [enterDirection_eq]
        exact ⟨rfl, rfl, rfl, rfl, rfl, rfl, rfl, rfl⟩

theorem endStep_evaluate (i : Arm) (s : State) : EndStep i s (s.evaluate i) := by
  unfold State.evaluate
  split
  · exact endStep_steer 4 i s
  · exact .refl i s

theorem endOnly_isolate (i : Arm) (s : State) : EndOnly i s (s.isolate i) :=
  endOnly_modSeg i (fun g => { g with isolated := true }) (fun _ => rfl) (fun _ => rfl) (fun _ => rfl) s

theorem endStep_unsure (i : Arm) (s : State) : EndStep i s (s.modSeg i fun g => { g with unsure := true }) :=
  endStep_modSeg i (fun g => { g with unsure := true }) (fun _ => rfl) (fun _ => rfl) (fun _ => rfl)
    (fun _ => ⟨rfl, rfl, rfl, rfl, rfl, rfl, rfl, rfl⟩) s

theorem endStep_applyDeltas (i : Arm) (e : RawEntry) (s : State) : EndStep i s (s.applyDeltas i e) := by
  unfold State.applyDeltas
  dsimp only
  split
  · exact endStep_takeView i _ s
  · exact (endStep_unsure i s).trans (endStep_raise i _)

/-- The last-heard fields are those of an entry (R95). -/
structure Hears (e : RawEntry) (g : SegEnd) : Prop where
  eN : g.eN = e.e
  xN : g.xN = e.x
  rN : g.rN = e.r.toNat
  demN : g.demN = e.demand.toNat
  capN : g.capN = some e.capacity.toNat
  limN : g.limN = e.lim
  limEpN : g.limEpN = e.limEpoch

theorem Hears.of_keeps {e : RawEntry} {g g' : SegEnd} (h : Hears e g) (k : KeepsHeard g g') : Hears e g' :=
  ⟨k.eN.trans h.eN, k.xN.trans h.xN, k.rN.trans h.rN, k.demN.trans h.demN, k.capN.trans h.capN, k.limN.trans h.limN,
    k.limEpN.trans h.limEpN⟩

/-- The entry has been stored at the segment end; the isolated flag is as it was. -/
structure EntryStored (i : Arm) (e : RawEntry) (s t : State) : Prop extends EndOnly i s t where
  hears : Hears e (t.seg i)
  isolated : (t.seg i).isolated = (s.seg i).isolated

theorem EntryStored.then_step {i : Arm} {e : RawEntry} {s t u : State} (h : EntryStored i e s t) (h' : EndStep i t u) :
    EntryStored i e s u :=
  { h.toEndOnly.trans h'.toEndOnly with hears := h.hears.of_keeps h'.heard, isolated := h'.heard.isolated.trans h.isolated }

theorem EntryStored.after_step {i : Arm} {e : RawEntry} {s t u : State} (h : EndStep i s t) (h' : EntryStored i e t u) :
    EntryStored i e s u :=
  { h.toEndOnly.trans h'.toEndOnly with hears := h'.hears, isolated := h'.isolated.trans h.heard.isolated }

theorem entryStored_hear (i : Arm) (e : RawEntry) (s : State) : EntryStored i e s (s.modSeg i (SegEnd.hear e)) := by
  have seg := seg_modSeg_same s i (SegEnd.hear e)
  exact
    { endOnly_modSeg i (SegEnd.hear e) (fun _ => rfl) (fun _ => rfl) (fun _ => rfl) s with
      hears := by rw [seg]; exact ⟨rfl, rfl, rfl, rfl, rfl, rfl, rfl⟩
      isolated := by rw [seg]; rfl }

theorem entryStored_storeHeard (i : Arm) (e : RawEntry) (s : State) : EntryStored i e s (s.storeHeard i e) := by
  unfold State.storeHeard
  dsimp only
  split
  · exact entryStored_hear i e s
  · exact (entryStored_hear i e s).then_step (endStep_takeView i _ _)

theorem endStep_takeBase (i : Arm) (epoch : Byte) (s : State) : EndStep i s (s.modSeg i (SegEnd.takeBase epoch)) :=
  endStep_modSeg i (SegEnd.takeBase epoch) (fun _ => rfl) (fun _ => rfl) (fun _ => rfl)
    (fun _ => ⟨rfl, rfl, rfl, rfl, rfl, rfl, rfl, rfl⟩) s

/-- Every kind of entry is stored (R95, R110). -/
theorem entryStored_takeEntryBase (i : Arm) (kind : EntryKind) (epoch : Byte) (e : RawEntry) (s : State) :
    EntryStored i e s (s.takeEntryBase i kind epoch e) := by
  unfold State.takeEntryBase
  cases kind with
  | ordinary => exact .after_step (endStep_applyDeltas i e s) (entryStored_storeHeard i e _)
  | first =>
    have stored := entryStored_storeHeard i e s
    dsimp only
    split
    · refine EntryStored.then_step ?_ (endStep_takeBase i epoch _)
      split
      · split
        · exact stored
        · exact stored.then_step (endStep_takeView i _ _)
      · exact stored
    · exact stored
    · exact stored
  | newEpoch =>
    have stored := EntryStored.after_step (endStep_unsure i s) (entryStored_storeHeard i e _)
    dsimp only
    split
    · exact stored.then_step (endStep_takeBase i epoch _)
    · exact stored
    · exact stored

theorem endStep_lower (i : Arm) (s : State) : EndStep i s (s.modSeg i SegEnd.lower) := by
  have lower (g : SegEnd) : ∃ limit, g.lower = { g with limit } := by
    unfold SegEnd.lower
    split
    · exact ⟨_, rfl⟩
    · exact ⟨g.limit, rfl⟩
  refine endStep_modSeg i SegEnd.lower (fun g => ?_) (fun g => ?_) (fun g => ?_) (fun g => ?_) s
  all_goals
    obtain ⟨limit, h⟩ := lower g
    rw [h]
  exact ⟨rfl, rfl, rfl, rfl, rfl, rfl, rfl, rfl⟩

theorem endStep_holdLimit (i : Arm) (e : RawEntry) (s : State) :
    EndStep i s (s.modSeg i fun g => { g with heldLimit := e.lim, heldEpoch := e.limEpoch }) :=
  endStep_modSeg i (fun g => { g with heldLimit := e.lim, heldEpoch := e.limEpoch }) (fun _ => rfl) (fun _ => rfl) (fun _ => rfl)
    (fun _ => ⟨rfl, rfl, rfl, rfl, rfl, rfl, rfl, rfl⟩) s

theorem endStep_follow (i : Arm) (e : RawEntry) (s : State) : EndStep i s (s.follow i e) := by
  unfold State.follow
  split
  · split
    · exact (endStep_modSeg i (fun g => { g with unsure := false }) (fun _ => rfl) (fun _ => rfl) (fun _ => rfl)
        (fun _ => ⟨rfl, rfl, rfl, rfl, rfl, rfl, rfl, rfl⟩) s).trans (endStep_takeView i _ _)
    · exact .refl i s
  · exact endStep_unsure i s
  · exact .refl i s
  · exact .refl i s

theorem endStep_takeEntryRole (i : Arm) (e : RawEntry) (s : State) : EndStep i s (s.takeEntryRole i e) := by
  unfold State.takeEntryRole
  split
  · refine EndStep.trans ?_ (endStep_evaluate i _)
    split
    · exact .refl i s
    · exact endStep_lower i s
  · exact (endStep_holdLimit i e s).trans (endStep_follow i e _)
  · exact .refl i s

/-- What an entry does to the segment end, whatever its kind and the role (R95, R105). -/
structure EntryTaken (i : Arm) (e : RawEntry) (s t : State) : Prop extends EndOnly i s t where
  hears : Hears e (t.seg i)
  isolated : (t.seg i).isolated = if (s.nbr i).isolating then (s.seg i).isolated else false

theorem entryTaken_takeEntry (i : Arm) (kind : EntryKind) (epoch : Byte) (e : RawEntry) (s : State) :
    EntryTaken i e s (s.takeEntry i kind epoch e) := by
  have stored := (entryStored_takeEntryBase i kind epoch e s).then_step (endStep_takeEntryRole i e _)
  unfold State.takeEntry State.clearIsolation
  have nbr : ((s.takeEntryBase i kind epoch e).takeEntryRole i e).nbr i = s.nbr i := by rw [State.nbr, stored.nbrs, State.nbr]
  rw [nbr]
  generalize (s.takeEntryBase i kind epoch e).takeEntryRole i e = u at stored
  split
  · next isolating =>
    exact { stored.toEndOnly with hears := stored.hears, isolated := by rw [if_pos isolating]; exact stored.isolated }
  · next live =>
    have cleared := endOnly_modSeg i (fun g => { g with isolated := false }) (fun _ => rfl) (fun _ => rfl) (fun _ => rfl) u
    have evaluated := endStep_evaluate i (u.modSeg i fun g => { g with isolated := false })
    have seg := seg_modSeg_same u i fun g => { g with isolated := false }
    exact
      { (stored.toEndOnly.trans cleared).trans evaluated.toEndOnly with
        hears := by
          refine Hears.of_keeps ?_ evaluated.heard
          rw [seg]
          obtain ⟨eN, xN, rN, demN, capN, limN, limEpN⟩ := stored.hears
          exact ⟨eN, xN, rN, demN, capN, limN, limEpN⟩
        isolated := by
          rw [evaluated.heard.isolated, seg, if_neg live] }

end Sys2Proof.Machine

/-! ## The good frames that are discarded (R127, R131) -/

namespace Sys2Proof.Machine

theorem entryRole_isSome (e : RawEntry) : (entryRole e).isSome = true ↔ e.codes.toNat % 4 = 1 ∨ e.codes.toNat % 4 = 2 := by
  unfold entryRole
  split
  · next code => simp [code]
  · next code => simp [code]
  · next other lock far => exact ⟨nofun, fun h => (h.elim lock far).elim⟩

theorem entryKind_isSome (e : RawEntry) : (entryKind e).isSome = true ↔ e.codes.toNat / 4 % 4 ≠ 3 := by
  unfold entryKind
  split
  · next code => simp [code]
  · next code => simp [code]
  · next code => simp [code]
  · next other zero one two =>
    simp only [imp_false] at zero one two
    refine ⟨nofun, fun h => ?_⟩
    omega

theorem entryCondition_isSome (e : RawEntry) : (entryCondition e).isSome = true ↔ e.codes.toNat / 16 % 4 ≠ 3 := by
  unfold entryCondition
  split
  · next code => simp [code]
  · next code => simp [code]
  · next code => simp [code]
  · next other zero one two =>
    simp only [imp_false] at zero one two
    refine ⟨nofun, fun h => ?_⟩
    omega

theorem entryDirection_isSome (e : RawEntry) : (entryDirection e).isSome = true ↔ e.dir.toNat ≤ 4 := by
  unfold entryDirection
  split
  · next code => simp [code]
  · next code => simp [code]
  · next code => simp [code]
  · next code => simp [code]
  · next code => simp [code]
  · next other zero one two three four =>
    simp only [imp_false] at zero one two three four
    refine ⟨nofun, fun h => ?_⟩
    omega

/-- An entry field outside its values (R131). -/
def BadEntry (e : RawEntry) : Prop :=
  e.codes.toNat % 4 = 0 ∨ e.codes.toNat % 4 = 3 ∨ e.codes.toNat / 4 % 4 = 3 ∨ e.codes.toNat / 16 % 4 = 3 ∨ 4 < e.dir.toNat
    ∨ 15 < e.r.toNat ∨ 15 < e.demand.toNat ∨ 15 < e.occ.toNat ∨ e.capacity = 0 ∨ 15 < e.capacity.toNat

theorem entryAcceptable_of_bad {e : RawEntry} (bad : BadEntry e) : entryAcceptable e = false := by
  refine Bool.eq_false_iff.2 fun acceptable => ?_
  unfold entryAcceptable at acceptable
  simp only [Bool.and_eq_true, entryRole_isSome, entryKind_isSome, entryCondition_isSome, entryDirection_isSome,
    decide_eq_true_eq] at acceptable
  obtain ⟨⟨⟨⟨⟨⟨⟨⟨role, kind⟩, condition⟩, direction⟩, r⟩, demand⟩, occ⟩, low⟩, high⟩ := acceptable
  have capacity : e.capacity ≠ 0 := fun zero => by simp [zero] at low
  rcases bad with h | h | h | h | h | h | h | h | h | h
  all_goals first | exact capacity h | omega

theorem nodeState_of_bad {status : Byte} (bad : status.toNat % 4 = 0) : nodeState status = none := by
  unfold nodeState
  simp [bad]

theorem not_reportAcceptable {epoch status : Byte} {entry : Option RawEntry}
    (bad : epoch = 0 ∨ status.toNat % 4 = 0 ∨ ∃ e, entry = some e ∧ BadEntry e) : reportAcceptable epoch status entry = false := by
  unfold reportAcceptable
  rcases bad with rfl | bad | ⟨e, rfl, bad⟩
  · rfl
  · simp [nodeState_of_bad bad]
  · simp [entryAcceptable_of_bad bad]

/-- This node's own frame, and a stranger's (R127). -/
theorem sortFrame_discards {s : State} {sender : Byte} {own : Bool}
    (ignored : (sender.toNat = s.cfg.nodeAddress ∧ own = true)
      ∨ (sender.toNat ≠ s.cfg.nodeAddress ∧ s.armOfNeighbour sender.toNat = none)) (take : Arm → State → State) :
    s.sortFrame sender own take = s := by
  unfold State.sortFrame
  rcases ignored with ⟨sender, rfl⟩ | ⟨sender, stranger⟩
  · rw [if_pos sender, if_pos rfl]
  · rw [if_neg sender, stranger]

theorem nbmReport_discards {s : State} {f : FloorReport} (i : Arm)
    (bad : reportAcceptable f.epoch f.status (FloorReport.entryFor s.cfg.nodeAddress f) = false) : s.nbmReport f i = s := by
  unfold State.nbmReport
  dsimp only
  rw [bad, if_neg nofun]

/-- A frame that the block `take` discards from every neighbour is discarded. -/
theorem sortFrame_idle {s : State} {sender : Byte} {own : Bool} {take : Arm → State → State}
    (foreign : sender.toNat ≠ s.cfg.nodeAddress) (idle : ∀ i, take i s = s) : s.sortFrame sender own take = s := by
  unfold State.sortFrame
  rw [if_neg foreign]
  split
  · rfl
  · exact idle _

/-- A good frame that concerns nobody here (R127, R131). -/
theorem discards_frames {s : State} (released : s.scu.rstHeld = false) (working : s.part.working = true) :
    (∀ (f : FloorReport) (own : Bool), (f.sender.toNat = s.cfg.nodeAddress ∧ own = true)
        ∨ (f.sender.toNat ≠ s.cfg.nodeAddress ∧ (s.armOfNeighbour f.sender.toNat = none ∨ f.epoch = 0
            ∨ f.status.toNat % 4 = 0 ∨ ∃ e, FloorReport.entryFor s.cfg.nodeAddress f = some e ∧ BadEntry e)) →
      Does (.floorReportReceived f own) s { s with fli := { s.fli with rx := s.fli.rx.handOver (.report f own) } })
    ∧ (∀ (r : ReportRequest) (own : Bool), (r.sender.toNat = s.cfg.nodeAddress ∧ own = true)
        ∨ (r.sender.toNat ≠ s.cfg.nodeAddress ∧ (s.armOfNeighbour r.sender.toNat = none ∨ r.epoch = 0)) →
      Does (.reportRequestReceived r own) s { s with fli := { s.fli with rx := s.fli.rx.handOver (.request r own) } }) := by
  refine ⟨fun f own discarded => ?_, fun r own discarded => ?_⟩
  · have sorted : (s.modRx (Receiver.handOver (.report f own))).sortFrame f.sender own (State.nbmReport f)
        = s.modRx (Receiver.handOver (.report f own)) := by
      rcases discarded with own | ⟨foreign, stranger | bad⟩
      · exact sortFrame_discards (.inl (by exact own)) _
      · exact sortFrame_discards (.inr (by exact ⟨foreign, stranger⟩)) _
      · exact sortFrame_idle (by exact foreign) fun i => nbmReport_discards i (not_reportAcceptable bad)
    show Host.Outcome.next (s.event _) = _
    rw [event_of_released released, if_pos working, sorted]
    rfl
  · have sorted : (s.modRx (Receiver.handOver (.request r own))).sortFrame r.sender own (State.nbmRequest r)
        = s.modRx (Receiver.handOver (.request r own)) := by
      rcases discarded with own | ⟨foreign, stranger | zero⟩
      · exact sortFrame_discards (.inl (by exact own)) _
      · exact sortFrame_discards (.inr (by exact ⟨foreign, stranger⟩)) _
      · exact sortFrame_idle (by exact foreign) fun i => if_pos zero
    show Host.Outcome.next (s.event _) = _
    rw [event_of_released released, if_pos working, sorted]
    rfl

end Sys2Proof.Machine

/-! ## A FLOOR REPORT that is taken: the neighbour's record (R132 to R138) -/

namespace Sys2Proof.Machine

/-- From `s` to `t` nothing has changed but the record of one neighbour, the segment ends without E, X and R, and event
flags. -/
structure ReportOnly (i : Arm) (s t : State) : Prop where
  frame : t = { s with nbrs := t.nbrs, segs := t.segs, mtp := t.mtp }
  others : ∀ j, j ≠ i → t.nbr j = s.nbr j
  counts : ∀ j, (t.seg j).e = (s.seg j).e ∧ (t.seg j).x = (s.seg j).x ∧ (t.seg j).r = (s.seg j).r

theorem ReportOnly.refl (i : Arm) (s : State) : ReportOnly i s s := ⟨rfl, fun _ _ => rfl, fun _ => ⟨rfl, rfl, rfl⟩⟩

theorem ReportOnly.trans {i : Arm} {s t u : State} (h : ReportOnly i s t) (h' : ReportOnly i t u) : ReportOnly i s u :=
  ⟨by rw [h'.frame, h.frame], fun j hj => (h'.others j hj).trans (h.others j hj), fun j =>
    ⟨(h'.counts j).1.trans (h.counts j).1, (h'.counts j).2.1.trans (h.counts j).2.1, (h'.counts j).2.2.trans (h.counts j).2.2⟩⟩

theorem ReportOnly.scu {i : Arm} {s t : State} (h : ReportOnly i s t) : t.scu = s.scu := by rw [h.frame]

theorem ReportOnly.cfg {i : Arm} {s t : State} (h : ReportOnly i s t) : t.cfg = s.cfg := congrArg Scu.cfg h.scu

theorem ReportOnly.fli {i : Arm} {s t : State} (h : ReportOnly i s t) : t.fli = s.fli := by rw [h.frame]

theorem reportOnly_modNbr (i : Arm) (f : Neighbour → Neighbour) (s : State) : ReportOnly i s (s.modNbr i f) :=
  ⟨rfl, fun _ hj => nbr_modNbr_other hj f s, fun _ => ⟨rfl, rfl, rfl⟩⟩

theorem reportOnly_raise (i : Arm) (k : EventKind) (s : State) : ReportOnly i s (s.raise k) :=
  ⟨rfl, fun _ _ => rfl, fun _ => ⟨rfl, rfl, rfl⟩⟩

theorem reportOnly_raise_if (i : Arm) (c : Prop) [Decidable c] (k : EventKind) (s : State) :
    ReportOnly i s (if c then s.raise k else s) := by
  split
  · exact reportOnly_raise i k s
  · exact .refl i s

theorem EndOnly.reportOnly {i : Arm} {s t : State} (h : EndOnly i s t) : ReportOnly i s t := by
  refine ⟨by rw [h.frame], fun j _ => by rw [State.nbr, h.nbrs, State.nbr], fun j => ?_⟩
  by_cases same : j = i
  · rw [same]
    exact ⟨h.sameE, h.sameX, h.sameR⟩
  · rw [h.others j same]
    exact ⟨rfl, rfl, rfl⟩

theorem nbr_raise_if (c : Prop) [Decidable c] (k : EventKind) (s : State) (j : Arm) :
    (if c then s.raise k else s).nbr j = s.nbr j := by
  split <;> rfl

theorem seg_raise_if (c : Prop) [Decidable c] (k : EventKind) (s : State) (j : Arm) :
    (if c then s.raise k else s).seg j = s.seg j := by
  split <;> rfl

theorem segs_raise_if (c : Prop) [Decidable c] (k : EventKind) (s : State) : (if c then s.raise k else s).segs = s.segs := by
  split <;> rfl

theorem relimit_congr {s t : State} {i : Arm} (scu : t.scu = s.scu) : t.relimit i = s.relimit i := by
  have cfg : t.cfg = s.cfg := congrArg Scu.cfg scu
  have part : t.part = s.part := congrArg Scu.part scu
  funext old new
  unfold State.relimit State.arm
  rw [limitOpen_congr cfg part, limitOpen_congr cfg part, cfg]

theorem isolate_segs_congr {i : Arm} {s t : State} (scu : t.scu = s.scu) (segs : t.segs = s.segs) :
    (t.isolate i).segs = (s.isolate i).segs := by
  unfold State.isolate State.modSeg State.putSeg State.seg
  rw [relimit_congr scu, segs]

theorem scu_raise_if (c : Prop) [Decidable c] (k : EventKind) (s : State) : (if c then s.raise k else s).scu = s.scu := by
  split <;> rfl

theorem flagged_raise_if (c : Prop) [Decidable c] (k k' : EventKind) (s : State) :
    (if c then s.raise k else s).flagged k' = true ↔ s.flagged k' = true ∨ (c ∧ k = k') := by
  split
  · next holds => simp [holds, or_comm]
  · next fails => simp [fails]

/-! ### The epoch -/

/-- The record after the epoch comparison (R133). -/
def Neighbour.compared (epoch : Byte) (n : Neighbour) : Neighbour :=
  if n.epoch = none ∨ n.epoch = some epoch then { n with epoch := some epoch } else n.noteRestart epoch

theorem Neighbour.compared_epoch (epoch : Byte) (n : Neighbour) : (n.compared epoch).epoch = some epoch := by
  unfold Neighbour.compared Neighbour.noteRestart
  split <;> rfl

theorem Neighbour.compared_mismatch (epoch : Byte) (n : Neighbour) : (n.compared epoch).mismatch = n.mismatch := by
  unfold Neighbour.compared Neighbour.noteRestart
  split <;> rfl

theorem Neighbour.compared_capFlag (epoch : Byte) (n : Neighbour) :
    (n.compared epoch).capFlag = true ↔ n.capFlag = true ∧ (n.epoch = none ∨ n.epoch = some epoch) := by
  unfold Neighbour.compared Neighbour.noteRestart
  split
  · next same => simp [same]
  · next other => simp [other]

theorem compareEpoch_eq (i : Arm) (epoch : Byte) (s : State) : s.compareEpoch i epoch =
    if ¬((s.nbr i).epoch = none ∨ (s.nbr i).epoch = some epoch) then
      (s.modNbr i (Neighbour.compared epoch)).raise .neighbourRestart
    else s.modNbr i (Neighbour.compared epoch) := by
  have modNbr_congr {f : Neighbour → Neighbour} (h : f (s.nbr i) = (s.nbr i).compared epoch) :
      s.modNbr i f = s.modNbr i (Neighbour.compared epoch) := by
    unfold State.modNbr
    rw [h]
  unfold State.compareEpoch
  split
  · next none =>
    rw [if_neg (fun h => h (.inl none))]
    exact modNbr_congr (by rw [Neighbour.compared, if_pos (.inl none)])
  · next old known =>
    by_cases same : old = epoch
    · have recorded : (s.nbr i).epoch = some epoch := by rw [known, same]
      rw [if_pos same, if_neg (fun h => h (.inr recorded))]
      refine Eq.trans ?_ (modNbr_congr (f := id) ?_)
      · unfold State.modNbr State.nbr
        rw [id, Quad.set_get_same]
      · rw [Neighbour.compared, if_pos (.inr recorded), ← recorded]
        rfl
    · have restart : ¬((s.nbr i).epoch = none ∨ (s.nbr i).epoch = some epoch) := by
        rw [known]
        simpa using same
      rw [if_neg same, if_pos restart]
      exact congrArg (State.raise .neighbourRestart) (modNbr_congr (by rw [Neighbour.compared, if_neg restart]))

/-! ### The record before the entry is handed over -/

/-- The silence time and the late flag at a report (R132). -/
def Neighbour.speaks (n : Neighbour) : Neighbour := { n with silence := 0, late := false }

/-- The record is LIVE and holds the node state of a report (R138). -/
def Neighbour.lives (status : Byte) (n : Neighbour) : Neighbour :=
  { n with state := .live, node := (nodeState status).map fun p => (p, status.getLsbD 2) }

/-- The record after steps 1 to 5 of a report (R138). -/
def Neighbour.reported (f : FloorReport) (m : Mismatch) (n : Neighbour) : Neighbour :=
  { (n.speaks.compared f.epoch).lives f.status with mismatch := m }

/-- Steps 1 to 5 of a report (R138). -/
def State.reported (i : Arm) (f : FloorReport) (m : Mismatch) (s : State) : State :=
  ((((s.modNbr i Neighbour.speaks).compareEpoch i f.epoch).modNbr i (Neighbour.lives f.status)).setMismatch i m)

/-- What steps 1 to 5 of a report do (R133, R136, R138). -/
structure ReportNoted (i : Arm) (f : FloorReport) (m : Mismatch) (s t : State) : Prop extends ReportOnly i s t where
  record : t.nbr i = (s.nbr i).reported f m
  segs : t.segs = (if m = .none then s else s.isolate i).segs
  restart : t.flagged .neighbourRestart = true ↔
    s.flagged .neighbourRestart = true ∨ ¬((s.nbr i).epoch = none ∨ (s.nbr i).epoch = some f.epoch)
  config : t.flagged .configMismatch = true ↔ s.flagged .configMismatch = true ∨ (m ≠ .none ∧ m ≠ (s.nbr i).mismatch)
  flags : ∀ k, k ≠ .neighbourRestart → k ≠ .configMismatch → t.flagged k = s.flagged k

/-- The record up to the node state, before the mismatch. -/
structure ReportBegun (i : Arm) (f : FloorReport) (s t : State) : Prop extends ReportOnly i s t where
  record : t.nbr i = ((s.nbr i).speaks.compared f.epoch).lives f.status
  segs : t.segs = s.segs
  restart : t.flagged .neighbourRestart = true ↔
    s.flagged .neighbourRestart = true ∨ ¬((s.nbr i).epoch = none ∨ (s.nbr i).epoch = some f.epoch)
  flags : ∀ k, k ≠ .neighbourRestart → t.flagged k = s.flagged k

theorem reportBegun (i : Arm) (f : FloorReport) (s : State) : ReportBegun i f s
    (((s.modNbr i Neighbour.speaks).compareEpoch i f.epoch).modNbr i (Neighbour.lives f.status)) := by
  have spoken : (s.modNbr i Neighbour.speaks).nbr i = (s.nbr i).speaks := nbr_modNbr_same _ _ _
  have epoch : (s.nbr i).speaks.epoch = (s.nbr i).epoch := rfl
  rw [compareEpoch_eq, spoken, epoch]
  have only := (reportOnly_modNbr i Neighbour.speaks s).trans ((reportOnly_modNbr i (Neighbour.compared f.epoch) _).trans
    ((reportOnly_raise_if i (¬((s.nbr i).epoch = none ∨ (s.nbr i).epoch = some f.epoch)) .neighbourRestart _).trans
      (reportOnly_modNbr i (Neighbour.lives f.status) _)))
  refine { only with record := ?_, segs := ?_, restart := ?_, flags := ?_ }
  · rw [nbr_modNbr_same, nbr_raise_if, nbr_modNbr_same, spoken]
  · split <;> rfl
  · refine (flagged_raise_if _ .neighbourRestart .neighbourRestart _).trans ?_
    rw [and_iff_left rfl]
    exact Iff.rfl
  · intro k hk
    refine Bool.eq_iff_iff.2 ((flagged_raise_if _ .neighbourRestart k _).trans ?_)
    rw [or_iff_left (fun h => hk h.2.symm)]
    exact Iff.rfl

theorem setMismatch_eq (i : Arm) (m : Mismatch) (s : State) : s.setMismatch i m =
    if m = .none then s.modNbr i fun n => { n with mismatch := m }
    else (if m ≠ .none ∧ m ≠ (s.nbr i).mismatch then (s.modNbr i fun n => { n with mismatch := m }).raise .configMismatch
      else s.modNbr i fun n => { n with mismatch := m }).isolate i := by
  unfold State.setMismatch
  dsimp only
  by_cases none : m = .none
  · subst none
    rfl
  · rw [if_neg none, if_neg none]
    congr 1
    exact if_congr (by rw [Bool.and_eq_true, bne_iff_ne, bne_iff_ne, ne_comm (a := (s.nbr i).mismatch)]) rfl rfl

theorem reportNoted (i : Arm) (f : FloorReport) (m : Mismatch) (s : State) : ReportNoted i f m s (s.reported i f m) := by
  have begun := reportBegun i f s
  unfold State.reported
  generalize ((s.modNbr i Neighbour.speaks).compareEpoch i f.epoch).modNbr i (Neighbour.lives f.status) = u at begun
  have old : (u.nbr i).mismatch = (s.nbr i).mismatch := by
    rw [begun.record]
    exact Neighbour.compared_mismatch _ _
  have record : (u.modNbr i fun n => { n with mismatch := m }).nbr i = (s.nbr i).reported f m := by
    rw [nbr_modNbr_same, begun.record]
    rfl
  have noted := begun.toReportOnly.trans (reportOnly_modNbr i (fun n => { n with mismatch := m }) u)
  rw [setMismatch_eq, old]
  by_cases none : m = .none
  · rw [if_pos none]
    refine { noted with record := record, segs := ?_, restart := begun.restart, config := ?_, flags := fun k h _ => begun.flags k h }
    · rw [if_pos none]
      exact begun.segs
    · exact (Bool.eq_iff_iff.1 (begun.flags .configMismatch nofun)).trans (by simp [none])
  · rw [if_neg none]
    refine { noted.trans ((reportOnly_raise_if i _ .configMismatch _).trans (endOnly_isolate i _).reportOnly) with
      record := ?_, segs := ?_, restart := ?_, config := ?_, flags := ?_ }
    · exact (nbr_raise_if _ _ _ _).trans record
    · rw [if_neg none]
      exact isolate_segs_congr ((scu_raise_if _ _ _).trans begun.scu) ((segs_raise_if _ _ _).trans begun.segs)
    · refine (flagged_raise_if _ .configMismatch .neighbourRestart _).trans ?_
      rw [or_iff_left (fun h => nomatch h.2)]
      exact begun.restart
    · refine (flagged_raise_if _ .configMismatch .configMismatch _).trans ?_
      rw [and_iff_left rfl]
      exact or_congr_left (Bool.eq_iff_iff.1 (begun.flags .configMismatch nofun))
    · intro k restart config
      refine Bool.eq_iff_iff.2 ((flagged_raise_if _ .configMismatch k _).trans ?_)
      rw [or_iff_left (fun h => config h.2.symm)]
      exact Bool.eq_iff_iff.1 (begun.flags k restart)

end Sys2Proof.Machine

/-! ## A FLOOR REPORT that is taken: the entry for this node (R137, R138) -/

namespace Sys2Proof.Machine

/-- The record that holds an entry (R135, R138). -/
def Neighbour.holds (e : RawEntry) (n : Neighbour) : Neighbour := { n with entry := some e, base := .current }

/-- The capacities are compared and the entry is recorded (R137, R138). -/
def State.entryRecorded (i : Arm) (e : RawEntry) (s : State) : State := (s.compareCapacity i e).modNbr i (Neighbour.holds e)

/-- What recording an entry does. -/
structure EntryRecorded (i : Arm) (e : RawEntry) (s t : State) : Prop extends ReportOnly i s t where
  segs : t.segs = s.segs
  record : t.nbr i = { (s.nbr i).holds e with capFlag := (t.nbr i).capFlag }
  capFlag : (t.nbr i).capFlag = true ↔ (s.nbr i).capFlag = true ∨ e.capacity.toNat ≠ (s.arm i).capacity
  capacity : t.flagged .capacityMismatch = true ↔
    s.flagged .capacityMismatch = true ∨ (e.capacity.toNat ≠ (s.arm i).capacity ∧ ¬(s.nbr i).capFlag = true)
  flags : ∀ k, k ≠ .capacityMismatch → t.flagged k = s.flagged k

theorem entryRecorded (i : Arm) (e : RawEntry) (s : State) : EntryRecorded i e s (s.entryRecorded i e) := by
  unfold State.entryRecorded State.compareCapacity
  split
  · next noted =>
    have only := (reportOnly_modNbr i (fun n => { n with capFlag := true }) s).trans
      ((reportOnly_raise i .capacityMismatch _).trans (reportOnly_modNbr i (Neighbour.holds e) _))
    have record := nbr_modNbr_same i (fun n => { n with capFlag := true }) s
    have held := nbr_modNbr_same i (Neighbour.holds e) ((s.modNbr i fun n => { n with capFlag := true }).raise .capacityMismatch)
    have kept : ((s.modNbr i fun n => { n with capFlag := true }).raise .capacityMismatch).nbr i = { s.nbr i with capFlag := true } := record
    rw [kept] at held
    refine { only with segs := rfl, record := by rw [held]; rfl, capFlag := ?_, capacity := ?_, flags := fun k hk => ?_ }
    · rw [held]
      exact iff_of_true rfl (.inr noted.1)
    · refine (Bool.eq_iff_iff.1 (flagged_raise .capacityMismatch .capacityMismatch _)).trans ?_
      simp [noted]
    · refine (flagged_raise .capacityMismatch k _).trans ?_
      rw [decide_eq_false (Ne.symm hk)]
      rfl
  · next silent =>
    have held := nbr_modNbr_same i (Neighbour.holds e) s
    have flag : ((s.nbr i).holds e).capFlag = (s.nbr i).capFlag := rfl
    refine { reportOnly_modNbr i (Neighbour.holds e) s with
      segs := rfl, record := by rw [held, flag]; rfl, capFlag := ?_, capacity := ?_, flags := fun _ _ => rfl }
    · rw [held, flag, iff_self_or]
      intro differs
      by_contra raised
      exact silent ⟨differs, Bool.eq_false_iff.2 raised⟩
    · refine (or_iff_left ?_).symm
      exact fun ⟨differs, raised⟩ => silent ⟨differs, Bool.eq_false_iff.2 raised⟩

/-- The kind an entry is handed as by a record: from its base state (R135). -/
theorem handEntry_eq (i : Arm) (epoch : Byte) (e : RawEntry) (s : State) :
    s.handEntry i epoch e = (s.entryRecorded i e).takeEntry i (s.nbr i).base.entryKind epoch e := by
  have base : ((s.compareCapacity i e).nbr i).base = (s.nbr i).base := by
    unfold State.compareCapacity
    split
    · show ((s.modNbr i fun n => { n with capFlag := true }).nbr i).base = _
      rw [nbr_modNbr_same]
    · rfl
  unfold State.handEntry
  dsimp only
  rw [base]
  rfl

/-- What handing an entry over does, whatever its kind and the role. -/
structure EntryHanded (i : Arm) (e : RawEntry) (s t : State) : Prop extends ReportOnly i s t where
  record : t.nbr i = { (s.nbr i).holds e with capFlag := (t.nbr i).capFlag }
  capFlag : (t.nbr i).capFlag = true ↔ (s.nbr i).capFlag = true ∨ e.capacity.toNat ≠ (s.arm i).capacity
  capacity : t.flagged .capacityMismatch = true ↔
    s.flagged .capacityMismatch = true ∨ (e.capacity.toNat ≠ (s.arm i).capacity ∧ ¬(s.nbr i).capFlag = true)
  flags : ∀ k, k ≠ .capacityMismatch → k ≠ .countInconsistent → t.flagged k = s.flagged k
  hears : Hears e (t.seg i)
  isolated : (t.seg i).isolated = if (s.nbr i).isolating then (s.seg i).isolated else false

theorem entryHanded (i : Arm) (epoch : Byte) (e : RawEntry) (s : State) : EntryHanded i e s (s.handEntry i epoch e) := by
  rw [handEntry_eq]
  have recorded := entryRecorded i e s
  have taken := entryTaken_takeEntry i (s.nbr i).base.entryKind epoch e (s.entryRecorded i e)
  generalize s.entryRecorded i e = u at recorded taken
  generalize u.takeEntry i (s.nbr i).base.entryKind epoch e = t at taken
  have nbr : t.nbr i = u.nbr i := by rw [State.nbr, taken.nbrs, State.nbr]
  have seg : u.seg i = s.seg i := by rw [State.seg, recorded.segs, State.seg]
  have isolating : (u.nbr i).isolating = (s.nbr i).isolating := by
    rw [recorded.record]
    rfl
  exact
    { recorded.toReportOnly.trans taken.toEndOnly.reportOnly with
      record := by rw [nbr]; exact recorded.record
      capFlag := by rw [nbr]; exact recorded.capFlag
      capacity := by rw [taken.flags .capacityMismatch nofun]; exact recorded.capacity
      flags := fun k capacity count => (taken.flags k count).trans (recorded.flags k capacity)
      hears := taken.hears
      isolated := by rw [taken.isolated, seg, isolating] }

/-! ### The whole report -/

theorem mismatchOf_congr {s t : State} (cfg : t.cfg = s.cfg) (i : Arm) (entry : Option RawEntry) :
    t.mismatchOf i entry = s.mismatchOf i entry := by
  unfold State.mismatchOf State.arm
  rw [cfg]

theorem takeReport_none (i : Arm) (f : FloorReport) (s : State) : s.takeReport i f none = s.reported i f .noEntry := rfl

theorem takeReport_some (i : Arm) (f : FloorReport) (e : RawEntry) (s : State) : s.takeReport i f (some e) =
    (s.reported i f (s.mismatchOf i (some e))).handEntry i f.epoch e := by
  have begun := reportBegun i f s
  unfold State.reported
  rw [← mismatchOf_congr begun.cfg]
  rfl

/-- The mismatch is none exactly where the entry's kind is the arm's (R136). -/
theorem mismatchOf_some (i : Arm) (e : RawEntry) (s : State) :
    s.mismatchOf i (some e) = if entryKind e = some (s.arm i).kind then .none else .kind := rfl

/-- What a report does to the record, the end and the flags, the entry for this node given (R132, R133, R136 to R138). -/
structure ReportTaken (i : Arm) (f : FloorReport) (entry : Option RawEntry) (s t : State) : Prop extends ReportOnly i s t where
  live : (t.nbr i).state = .live
  silence : (t.nbr i).silence = 0
  late : (t.nbr i).late = false
  epoch : (t.nbr i).epoch = some f.epoch
  node : (t.nbr i).node = (nodeState f.status).map fun p => (p, f.status.getLsbD 2)
  mismatch : (t.nbr i).mismatch = s.mismatchOf i entry
  restart : t.flagged .neighbourRestart = true ↔
    s.flagged .neighbourRestart = true ∨ ¬((s.nbr i).epoch = none ∨ (s.nbr i).epoch = some f.epoch)
  config : t.flagged .configMismatch = true ↔
    s.flagged .configMismatch = true ∨ (s.mismatchOf i entry ≠ .none ∧ s.mismatchOf i entry ≠ (s.nbr i).mismatch)
  capFlag : (t.nbr i).capFlag = true ↔
    ((s.nbr i).capFlag = true ∧ ((s.nbr i).epoch = none ∨ (s.nbr i).epoch = some f.epoch))
      ∨ ∃ e ∈ entry, e.capacity.toNat ≠ (s.arm i).capacity
  capacity : t.flagged .capacityMismatch = true ↔ s.flagged .capacityMismatch = true
    ∨ ((∃ e ∈ entry, e.capacity.toNat ≠ (s.arm i).capacity)
      ∧ ¬((s.nbr i).capFlag = true ∧ ((s.nbr i).epoch = none ∨ (s.nbr i).epoch = some f.epoch)))
  held : ∀ e, entry = some e → (t.nbr i).entry = some e ∧ (t.nbr i).base = .current ∧ Hears e (t.seg i)
  isolated : (t.seg i).isolated = true ↔ s.mismatchOf i entry ≠ .none

theorem Neighbour.compared_speaks_late (epoch : Byte) (n : Neighbour) :
    (n.speaks.compared epoch).silence = 0 ∧ (n.speaks.compared epoch).late = false := by
  unfold Neighbour.compared Neighbour.noteRestart Neighbour.speaks
  split <;> exact ⟨rfl, rfl⟩

/-- A mismatch isolates the arm (R130, R136). -/
theorem ReportNoted.isolated {i : Arm} {f : FloorReport} {m : Mismatch} {s t : State} (h : ReportNoted i f m s t)
    (mismatch : m ≠ .none) : (t.seg i).isolated = true := by
  have segs := h.segs
  rw [if_neg mismatch] at segs
  rw [State.seg, segs]
  exact isolated_isolate i s

theorem reportTaken_none (i : Arm) (f : FloorReport) (s : State) : ReportTaken i f none s (s.takeReport i f none) := by
  rw [takeReport_none]
  have noted := reportNoted i f .noEntry s
  generalize s.reported i f .noEntry = t at noted
  have record := noted.record
  have ⟨silence, late⟩ := Neighbour.compared_speaks_late f.epoch (s.nbr i)
  have flags := noted.flags .capacityMismatch nofun nofun
  have noEntry : ¬∃ e ∈ (none : Option RawEntry), e.capacity.toNat ≠ (s.arm i).capacity := by simp
  exact
    { noted.toReportOnly with
      live := by rw [record]; rfl
      silence := by rw [record]; exact silence
      late := by rw [record]; exact late
      epoch := by rw [record]; exact Neighbour.compared_epoch _ _
      node := by rw [record]; rfl
      mismatch := by rw [record]; rfl
      restart := noted.restart
      config := noted.config
      capFlag := by
        rw [record]
        exact (Neighbour.compared_capFlag f.epoch (s.nbr i).speaks).trans (or_iff_left noEntry).symm
      capacity := by simp [flags]
      held := nofun
      isolated := iff_of_true (noted.isolated nofun) nofun }

theorem reportTaken_some (i : Arm) (f : FloorReport) (e : RawEntry) (s : State) :
    ReportTaken i f (some e) s (s.takeReport i f (some e)) := by
  rw [takeReport_some]
  have noted := reportNoted i f (s.mismatchOf i (some e)) s
  have mismatched : (((s.nbr i).reported f (s.mismatchOf i (some e))).isolating = true) ↔ s.mismatchOf i (some e) ≠ .none := by
    simp [Neighbour.isolating, Neighbour.reported, Neighbour.lives]
  generalize hm : s.mismatchOf i (some e) = m at noted mismatched
  have handed := entryHanded i f.epoch e (s.reported i f m)
  generalize s.reported i f m = u at noted handed
  generalize u.handEntry i f.epoch e = t at handed
  have record : t.nbr i = { ((s.nbr i).reported f m).holds e with capFlag := (t.nbr i).capFlag } := by
    rw [← noted.record]
    exact handed.record
  have ⟨silence, late⟩ := Neighbour.compared_speaks_late f.epoch (s.nbr i)
  have flags := noted.flags .capacityMismatch nofun nofun
  have arm : u.arm i = s.arm i := by
    unfold State.arm
    rw [noted.cfg]
  have raised : (u.nbr i).capFlag = true ↔
      (s.nbr i).capFlag = true ∧ ((s.nbr i).epoch = none ∨ (s.nbr i).epoch = some f.epoch) := by
    rw [noted.record]
    exact Neighbour.compared_capFlag f.epoch (s.nbr i).speaks
  have differs : (∃ e' ∈ some e, e'.capacity.toNat ≠ (s.arm i).capacity) ↔ e.capacity.toNat ≠ (s.arm i).capacity := by simp
  exact
    { noted.toReportOnly.trans handed.toReportOnly with
      live := by rw [record]; rfl
      silence := by rw [record]; exact silence
      late := by rw [record]; exact late
      epoch := by rw [record]; exact Neighbour.compared_epoch _ _
      node := by rw [record]; rfl
      mismatch := by rw [record, hm]; rfl
      restart := by rw [handed.flags .neighbourRestart nofun nofun]; exact noted.restart
      config := by rw [handed.flags .configMismatch nofun nofun, hm]; exact noted.config
      capFlag := by rw [handed.capFlag, raised, arm, differs]
      capacity := by rw [handed.capacity, raised, arm, differs, flags]
      held := fun e' same => by
        cases same
        exact ⟨by rw [record]; rfl, by rw [record]; rfl, handed.hears⟩
      isolated := by
        rw [handed.isolated, noted.record, hm]
        split
        · next isolating => exact iff_of_true (noted.isolated (mismatched.1 isolating)) (mismatched.1 isolating)
        · next live => exact iff_of_false nofun (fun h => live (mismatched.2 h)) }

theorem reportTaken (i : Arm) (f : FloorReport) (entry : Option RawEntry) (s : State) :
    ReportTaken i f entry s (s.takeReport i f entry) := by
  cases entry with
  | none => exact reportTaken_none i f s
  | some e => exact reportTaken_some i f e s

end Sys2Proof.Machine

/-! ## A FLOOR REPORT and the end of LISTENING (R138, R170) -/

namespace Sys2Proof.Machine

theorem hasNeighbour_congr {s t : State} (cfg : t.cfg = s.cfg) (i : Arm) : t.hasNeighbour i = s.hasNeighbour i := by
  unfold State.hasNeighbour State.present State.arm
  rw [cfg]

theorem keepsHeard_finish (old u : State) (i : Arm) : KeepsHeard (u.seg i) ((State.finish old u).seg i) := by
  rw [finish_seg]
  exact ⟨rfl, rfl, rfl, rfl, rfl, rfl, rfl, rfl⟩

theorem finish_periodic (old u : State) : (State.finish old u).fli.tx.periodic = u.fli.tx.periodic := by
  rw [finish_tx]
  split <;> rfl

theorem listenTest_keeps (s : State) : s.listenTest.nbrs = s.nbrs ∧ s.listenTest.segs = s.segs ∧ s.listenTest.mtp = s.mtp
    ∧ s.listenTest.aqu = s.aqu ∧ s.listenTest.closures = s.closures ∧ s.listenTest.xu = s.xu ∧ s.listenTest.wkp = s.wkp := by
  unfold State.listenTest
  split <;> exact ⟨rfl, rfl, rfl, rfl, rfl, rfl, rfl⟩

theorem allLive_iff (s : State) : s.allLive = true ↔ ∀ j, s.hasNeighbour j = true → (s.nbr j).state = .live := by
  unfold State.allLive
  rw [List.all_eq_true]
  refine forall_congr' fun j => ?_
  rw [imp_iff_right (Arm.mem_list j), Bool.or_eq_true, beq_iff_eq, Bool.not_eq_true', ← Bool.not_eq_true, ← imp_iff_not_or]

/-- With the record of arm `i` LIVE, LISTENING ends where every other record is. -/
theorem listenTest_of_last {s : State} {i : Arm} (live : (s.nbr i).state = .live)
    (last : s.part = .listening ∧ ∀ j, j ≠ i → s.hasNeighbour j = true → (s.nbr j).state = .live) :
    s.listenTest = s.enterRecovering := by
  have all : s.allLive = true := (allLive_iff s).2 fun j neighbour => by
    by_cases same : j = i
    · rw [same, live]
    · exact last.2 j same neighbour
  unfold State.listenTest
  rw [last.1, all]
  rfl

theorem listenTest_of_not_last {s : State} {i : Arm}
    (last : ¬(s.part = .listening ∧ ∀ j, j ≠ i → s.hasNeighbour j = true → (s.nbr j).state = .live)) : s.listenTest = s := by
  unfold State.listenTest
  refine if_neg fun h => last ?_
  rw [Bool.and_eq_true, beq_iff_eq, allLive_iff] at h
  exact ⟨h.1, fun j _ => h.2 j⟩

/-- A REPORT REQUEST that is not being sent is dropped (R116, R128). -/
theorem startReports_pending {t : Transmitter} (idle : t.state ≠ .sending) : t.startReports.pending ≠ some .request := by
  by_cases request : t.pending = some .request
  · rw [startReports_dropped ⟨request, idle⟩]
    exact nofun
  · rw [startReports_kept fun h => request h.1]
    exact request

/-- The end of an event that enters RECOVERING (R116, R119, R128, R170). -/
theorem finish_enterRecovering (old u : State) :
    (State.finish old u.enterRecovering).scu = { u.scu with part := .recovering, listening := .stopped }
    ∧ (State.finish old u.enterRecovering).fli.tx.periodic = .running 0
    ∧ (State.finish old u.enterRecovering).fli.tx.changeWaiting = true
    ∧ (u.fli.tx.state ≠ .sending → (State.finish old u.enterRecovering).fli.tx.pending ≠ some .request) := by
  have tx : u.enterRecovering.fli.tx = u.fli.tx.startReports := rfl
  obtain ⟨scu, -⟩ := finish_keeps old u.enterRecovering
  refine ⟨scu, finish_periodic old _, ?_, fun idle => ?_⟩
  · rw [finish_changeWaiting, tx]
    rfl
  · have pending := startReports_pending idle
    rw [finish_tx, tx]
    split
    · exact nofun
    · exact pending

theorem does_floorReport {s : State} {f : FloorReport} {own : Bool} {i : Arm} (released : s.scu.rstHeld = false)
    (working : s.part.working = true) (foreign : f.sender.toNat ≠ s.cfg.nodeAddress)
    (neighbour : s.armOfNeighbour f.sender.toNat = some i)
    (acceptable : reportAcceptable f.epoch f.status (FloorReport.entryFor s.cfg.nodeAddress f) = true) :
    Does (.floorReportReceived f own) s (((s.modRx (Receiver.handOver (.report f own))).takeReport i f
      (FloorReport.entryFor s.cfg.nodeAddress f)).listenTest) := by
  have accepted : (s.modRx (Receiver.handOver (.report f own))).nbmReport f i =
      ((s.modRx (Receiver.handOver (.report f own))).takeReport i f (FloorReport.entryFor s.cfg.nodeAddress f)).listenTest :=
    if_pos acceptable
  show Host.Outcome.next (s.event _) = _
  rw [event_of_released released, if_pos working, sortFrame_neighbour (by exact foreign) (by exact neighbour), accepted]

/-- Settles O44. -/
theorem neighbourReport : Obligations.NeighbourReport := by
  refine ⟨fun s f r own released working => ?_, fun s f own i released working foreign neighbour acceptable => ?_⟩
  · obtain ⟨reports, requests⟩ := discards_frames released working
    exact ⟨reports f own, requests r own⟩
  have does := does_floorReport (own := own) released working foreign neighbour acceptable
  generalize hv : s.modRx (Receiver.handOver (.report f own)) = v at does
  have taken := reportTaken i f (FloorReport.entryFor s.cfg.nodeAddress f) v
  generalize hentry : FloorReport.entryFor s.cfg.nodeAddress f = entry at does taken
  generalize v.takeReport i f entry = u at does taken
  have nbrOf (j : Arm) : v.nbr j = s.nbr j := by rw [← hv]; rfl
  have segOf (j : Arm) : v.seg j = s.seg j := by rw [← hv]; rfl
  have flagOf (k : EventKind) : v.flagged k = s.flagged k := by rw [← hv]; rfl
  have scu : u.scu = s.scu := by rw [taken.scu, ← hv]; rfl
  have tx : u.fli.tx = s.fli.tx := by rw [taken.fli, ← hv]; rfl
  have kept : u.aqu = s.aqu ∧ u.closures = s.closures ∧ u.xu = s.xu ∧ u.wkp = s.wkp := by
    rw [taken.frame, ← hv]
    exact ⟨rfl, rfl, rfl, rfl⟩
  have mismatchOf : v.mismatchOf i entry = s.mismatchOf i entry := by rw [← hv]; rfl
  have arm : v.arm i = s.arm i := by rw [← hv]; rfl
  obtain ⟨nbrs, segs, mtp, aqu, closures, xu, wkp⟩ := listenTest_keeps u
  obtain ⟨-, faqu, fclosures, fxu, fnbrs, fwkp, fmtp, -⟩ := finish_keeps s u.listenTest
  have nbr (j : Arm) : (State.finish s u.listenTest).nbr j = u.nbr j := by rw [State.nbr, fnbrs, nbrs, State.nbr]
  have flagged (k : EventKind) : (State.finish s u.listenTest).flagged k = u.flagged k := by
    rw [State.flagged, fmtp, mtp, State.flagged]
  have heard : KeepsHeard (u.seg i) ((State.finish s u.listenTest).seg i) := by
    have seg : u.listenTest.seg i = u.seg i := by rw [State.seg, segs, State.seg]
    rw [← seg]
    exact keepsHeard_finish s u.listenTest i
  have counts (j : Arm) : ((State.finish s u.listenTest).seg j).e = (s.seg j).e
      ∧ ((State.finish s u.listenTest).seg j).x = (s.seg j).x ∧ ((State.finish s u.listenTest).seg j).r = (s.seg j).r := by
    have seg : u.listenTest.seg j = u.seg j := by rw [State.seg, segs, State.seg]
    rw [finish_seg, seg, ← segOf j]
    exact taken.counts j
  have lastOf : (u.part = .listening ∧ ∀ j, j ≠ i → u.hasNeighbour j = true → (u.nbr j).state = .live)
      ↔ s.part = .listening ∧ ∀ j, j ≠ i → s.hasNeighbour j = true → (s.nbr j).state = .live := by
    have part : u.part = s.part := congrArg Scu.part scu
    refine and_congr (by rw [part]) (forall_congr' fun j => forall_congr' fun other => ?_)
    rw [hasNeighbour_congr (congrArg Scu.cfg scu), taken.others j other, nbrOf]
  refine ⟨_, does, ?_, ?_, ?_, ?_, ?_, ?_, ?_, ?_, ⟨?_, ?_⟩, ?_, ?_, ⟨?_, ?_⟩, counts, ?_, faqu.trans (aqu.trans kept.1),
    fclosures.trans (closures.trans kept.2.1), fxu.trans (xu.trans kept.2.2.1), fwkp.trans (wkp.trans kept.2.2.2)⟩
  · rw [nbr, taken.live]
  · rw [nbr, taken.silence]
  · rw [nbr, taken.late]
  · rw [nbr, taken.epoch]
  · rw [nbr, taken.node]
  · intro old recorded other
    rw [flagged, taken.restart, nbrOf, recorded]
    exact .inr (by simpa using other)
  · intro same
    rw [flagged, Bool.eq_iff_iff, taken.restart, nbrOf, flagOf, or_iff_left (fun h => h same)]
  · rw [flagged, taken.config, nbr, taken.mismatch, mismatchOf, nbrOf, flagOf]
  · rw [nbr, taken.capFlag, nbrOf, arm]
  · rw [flagged, taken.capacity, nbrOf, arm, flagOf]
  · intro e found
    obtain ⟨stored, base, hears⟩ := taken.held e found
    obtain ⟨eN, xN, rN, demN, -, limN, limEpN⟩ := hears.of_keeps heard
    have mismatch : v.mismatchOf i entry = if entryKind e = some (s.arm i).kind then .none else .kind := by
      rw [mismatchOf, found, mismatchOf_some]
    refine ⟨by rw [nbr, stored], by rw [nbr, base], eN, xN, rN, demN, limN, limEpN, ?_, fun same => ?_, fun other => ?_⟩
    · rw [nbr, taken.mismatch, mismatch]
    · rw [heard.isolated, ← Bool.not_eq_true, taken.isolated, mismatch, if_pos same]
      exact fun h => h rfl
    · rw [heard.isolated, taken.isolated, mismatch, if_neg other]
      exact nofun
  · intro missing
    have mismatch : v.mismatchOf i entry = .noEntry := by
      rw [mismatchOf, missing]
      rfl
    refine ⟨by rw [nbr, taken.mismatch, mismatch], ?_⟩
    rw [heard.isolated, taken.isolated, mismatch]
    exact nofun
  · intro notLast
    rw [listenTest_of_not_last fun h => notLast (lastOf.1 h)]
    exact ⟨(finish_keeps s u).1.trans scu, (finish_periodic s u).trans (by rw [tx])⟩
  · intro last
    rw [listenTest_of_last taken.live (lastOf.2 last), ← scu, ← tx]
    exact finish_enterRecovering s u
  · intro j other
    rw [nbr, taken.others j other, nbrOf]

end Sys2Proof.Machine

/-! ## A neighbour's entry: the occupancy view and its tests (R94 to R96, R107, R110) -/

namespace Sys2Proof.Machine

/-- The consistency test of a view at a capacity (R96). -/
def State.failsAt (s : State) (i : Arm) (cap : Nat) (v : Int) : Prop :=
  v < 0 ∨ (cap : Int) < if s.role i = .far then v else v + (s.seg i).r

/-- How the capacity and the view of an end stand after the work of an entry: at least one test has failed where `failed`
holds, and the end has been set UNSURE without one where `marked` holds. -/
structure Viewed (i : Arm) (cap occ : Nat) (failed marked : Prop) (s t : State) : Prop extends EndOnly i s t where
  capacity : t.effCapacity i = cap
  occ : (t.seg i).occ = occ
  unsure : (t.seg i).unsure = true ↔ (s.seg i).unsure = true ∨ failed ∨ marked
  flag : t.flagged .countInconsistent = true ↔ s.flagged .countInconsistent = true ∨ failed

section
variable {i : Arm} {cap occ : Nat} {failed marked : Prop} {s t u : State}

theorem Viewed.refl (i : Arm) (s : State) : Viewed i (s.effCapacity i) (s.seg i).occ False False s s :=
  { EndOnly.refl i s with capacity := rfl, occ := rfl, unsure := by simp, flag := by simp }

/-- A step that changes neither the capacity, nor the view, nor the unsure flag, nor raises COUNT_INCONSISTENT. -/
theorem Viewed.then_quiet (h : Viewed i cap occ failed marked s t) (only : EndOnly i t u) (capN : (u.seg i).capN = (t.seg i).capN)
    (occ' : (u.seg i).occ = (t.seg i).occ) (unsure : (u.seg i).unsure = (t.seg i).unsure)
    (flag : u.flagged .countInconsistent = t.flagged .countInconsistent) : Viewed i cap occ failed marked s u :=
  { h.toEndOnly.trans only with
    capacity := (effCapacity_congr only.cfg capN).trans h.capacity
    occ := occ'.trans h.occ
    unsure := by rw [unsure]; exact h.unsure
    flag := by rw [flag]; exact h.flag }

theorem Viewed.of_iff {failed' marked' : Prop} (h : Viewed i cap occ failed marked s t) (failures : failed ↔ failed')
    (marks : marked ↔ marked') : Viewed i cap occ failed' marked' s t :=
  { h with unsure := by rw [← failures, ← marks]; exact h.unsure, flag := by rw [← failures]; exact h.flag }

/-- Another view is taken. -/
theorem Viewed.takeView (h : Viewed i cap occ failed marked s t) (v : Int) :
    Viewed i cap (min v.toNat 15) (failed ∨ s.failsAt i cap v) marked s (t.takeView i v) := by
  have step := endStep_takeView i v t
  obtain ⟨view, unsure, flag⟩ := takeView_tested i v t
  have fails : t.viewFails i v (t.seg i).r ↔ s.failsAt i cap v := by
    unfold State.viewFails State.failsAt
    rw [h.capacity, h.role, h.sameR]
  rw [fails] at unsure flag
  exact
    { h.toEndOnly.trans step.toEndOnly with
      capacity := (effCapacity_congr step.cfg step.heard.capN).trans h.capacity
      occ := view
      unsure := by rw [unsure, h.unsure]; tauto
      flag := by rw [flag, h.flag, or_assoc] }

/-- The end is set UNSURE without a test. -/
theorem Viewed.unsureSet (h : Viewed i cap occ failed marked s t) :
    Viewed i cap occ failed True s (t.modSeg i fun g => { g with unsure := true }) := by
  have step := endStep_unsure i t
  have seg := seg_modSeg_same t i fun g => { g with unsure := true }
  exact
    { h.toEndOnly.trans step.toEndOnly with
      capacity := (effCapacity_congr step.cfg step.heard.capN).trans h.capacity
      occ := by rw [seg]; exact h.occ
      unsure := by rw [seg]; simp
      flag := h.flag }

theorem Viewed.evaluate (h : Viewed i cap occ failed marked s t) : Viewed i cap occ failed marked s (t.evaluate i) := by
  have step := endStep_evaluate i t
  obtain ⟨-, -, -, occ', unsure, -⟩ := evaluate_counts i i t
  refine h.then_quiet step.toEndOnly step.heard.capN occ' unsure ?_
  rw [State.flagged, (evaluate_keeps i t).2.2.2.2.2.2.2.2.2.1, State.flagged]

/-- The deltas of an ordinary entry (R95, steps 1 and 2). -/
theorem viewed_applyDeltas (i : Arm) (e : RawEntry) (s : State) :
    let counted : Prop := (e.e - (s.seg i).eN).toNat ≤ 30 ∧ (e.x - (s.seg i).xN).toNat ≤ 30
    let sum : Int := ((s.seg i).occ : Int) + (e.e - (s.seg i).eN).toNat - (e.x - (s.seg i).xN).toNat
    (counted → Viewed i (s.effCapacity i) (min sum.toNat 15) (s.failsAt i (s.effCapacity i) sum) False s (s.applyDeltas i e))
    ∧ (¬counted → Viewed i (s.effCapacity i) (s.seg i).occ True False s (s.applyDeltas i e)) := by
  intro counted sum
  have start := Viewed.refl i s
  refine ⟨fun small => ?_, fun large => ?_⟩
  · have applied : s.applyDeltas i e = s.takeView i sum := if_pos small
    rw [applied]
    exact (start.takeView sum).of_iff (by rw [false_or]) Iff.rfl
  · have applied : s.applyDeltas i e = (s.modSeg i fun g => { g with unsure := true }).raise .countInconsistent := if_neg large
    have marked := start.unsureSet
    rw [applied]
    exact
      { marked.toEndOnly.trans (endStep_raise i _).toEndOnly with
        capacity := marked.capacity
        occ := marked.occ
        unsure := iff_of_true (marked.unsure.2 (.inr (.inr trivial))) (.inr (.inl trivial))
        flag := iff_of_true (by rw [flagged_raise]; rfl) (.inr trivial) }

/-- The entry is stored, and the view, which is at most 15, tested again where the capacity changes (R94, R95). -/
theorem Viewed.storeHeard {e : RawEntry} (h : Viewed i cap occ failed marked s t) (small : occ ≤ 15) :
    let capacity := min (s.arm i).capacity e.capacity.toNat
    Viewed i capacity occ (failed ∨ (capacity ≠ cap ∧ s.failsAt i capacity occ)) marked s (t.storeHeard i e) := by
  intro capacity
  have seg := seg_modSeg_same t i (SegEnd.hear e)
  have step := entryStored_hear i e t
  have effective : (t.modSeg i (SegEnd.hear e)).effCapacity i = capacity := by
    unfold State.effCapacity SegEnd.capacity
    rw [step.hears.capN, State.arm, step.cfg, h.cfg]
    rfl
  have heard : Viewed i capacity occ failed marked s (t.modSeg i (SegEnd.hear e)) :=
    { h.toEndOnly.trans step.toEndOnly with
      capacity := effective
      occ := by rw [seg]; exact h.occ
      unsure := by rw [seg]; exact h.unsure
      flag := h.flag }
  unfold State.storeHeard
  dsimp only
  rw [effective, h.capacity]
  split
  · next same => exact heard.of_iff (by simp [same]) Iff.rfl
  · next other =>
    unfold State.retestView
    rw [heard.occ]
    have tested := heard.takeView (occ : Int)
    rw [Int.toNat_natCast, min_eq_left small] at tested
    exact tested.of_iff (by simp [other]) Iff.rfl

theorem Viewed.takeBase (h : Viewed i cap occ failed marked s t) (epoch : Byte) :
    Viewed i cap occ failed marked s (t.modSeg i (SegEnd.takeBase epoch)) := by
  have seg := seg_modSeg_same t i (SegEnd.takeBase epoch)
  have step := endStep_takeBase i epoch t
  exact h.then_quiet step.toEndOnly step.heard.capN (by rw [seg]; rfl) (by rw [seg]; rfl) rfl

theorem Viewed.lower (h : Viewed i cap occ failed marked s t) : Viewed i cap occ failed marked s (t.modSeg i SegEnd.lower) := by
  have seg := seg_modSeg_same t i SegEnd.lower
  have step := endStep_lower i t
  have kept : (t.seg i).lower.occ = (t.seg i).occ ∧ (t.seg i).lower.unsure = (t.seg i).unsure := by
    unfold SegEnd.lower
    split <;> exact ⟨rfl, rfl⟩
  exact h.then_quiet step.toEndOnly step.heard.capN (by rw [seg]; exact kept.1) (by rw [seg]; exact kept.2) rfl

theorem Viewed.holdLimit (h : Viewed i cap occ failed marked s t) (e : RawEntry) :
    Viewed i cap occ failed marked s (t.modSeg i fun g => { g with heldLimit := e.lim, heldEpoch := e.limEpoch }) := by
  have seg := seg_modSeg_same t i fun g => { g with heldLimit := e.lim, heldEpoch := e.limEpoch }
  have step := endStep_holdLimit i e t
  exact h.then_quiet step.toEndOnly step.heard.capN (by rw [seg]) (by rw [seg]) rfl

theorem Viewed.clearIsolation (h : Viewed i cap occ failed marked s t) :
    Viewed i cap occ failed marked s (t.clearIsolation i) := by
  unfold State.clearIsolation
  split
  · exact h
  · have seg := seg_modSeg_same t i fun g => { g with isolated := false }
    have cleared := endOnly_modSeg i (fun g => { g with isolated := false }) (fun _ => rfl) (fun _ => rfl) (fun _ => rfl) t
    exact (h.then_quiet cleared (by rw [seg]) (by rw [seg]) (by rw [seg]) rfl).evaluate

/-- At a lock end the role-specific work leaves the view as it is. -/
theorem Viewed.roleOfLock (h : Viewed i cap occ failed marked s t) (lock : s.role i = .lock) (e : RawEntry) :
    Viewed i cap occ failed marked s (t.takeEntryRole i e) := by
  have role : t.role i = .lock := h.role.trans lock
  unfold State.takeEntryRole
  rw [role]
  dsimp only
  split
  · exact h.evaluate
  · exact h.lower.evaluate

end

/-! ### The base part, by the kind of the entry -/

/-- The effective capacity under an entry (R94). -/
def State.entryCapacity (s : State) (i : Arm) (e : RawEntry) : Nat := min (s.arm i).capacity e.capacity.toNat

/-- The test of a view under a new effective capacity fails (R94). -/
def State.retestFails (s : State) (i : Arm) (e : RawEntry) (occ : Nat) : Prop :=
  s.entryCapacity i e ≠ s.effCapacity i ∧ s.failsAt i (s.entryCapacity i e) occ

theorem takeEntryBase_ordinary (i : Arm) (epoch : Byte) (e : RawEntry) (s : State) :
    s.takeEntryBase i .ordinary epoch e = (s.applyDeltas i e).storeHeard i e := rfl

theorem takeEntryBase_first_lock {i : Arm} {s : State} (lock : s.role i = .lock) (epoch : Byte) (e : RawEntry) :
    s.takeEntryBase i .first epoch e =
      (if (s.seg i).unsure = true ∧ ((s.storeHeard i e).seg i).occ ≠ e.occ.toNat then (s.storeHeard i e).takeView i e.occ.toNat
        else s.storeHeard i e).modSeg i (SegEnd.takeBase epoch) := by
  unfold State.takeEntryBase
  dsimp only
  rw [lock]
  dsimp only
  congr 1
  split
  · next unsure =>
    split
    · next same => rw [if_neg fun h => h.2 same]
    · next other => rw [if_pos ⟨unsure, other⟩]
  · next sure => rw [if_neg fun h => sure h.1]

theorem takeEntryBase_first_far {i : Arm} {s : State} (far : s.role i = .far) (epoch : Byte) (e : RawEntry) :
    s.takeEntryBase i .first epoch e = s.storeHeard i e := by
  unfold State.takeEntryBase
  dsimp only
  rw [far]

theorem takeEntryBase_newEpoch_lock {i : Arm} {s : State} (lock : s.role i = .lock) (epoch : Byte) (e : RawEntry) :
    s.takeEntryBase i .newEpoch epoch e =
      ((s.modSeg i fun g => { g with unsure := true }).storeHeard i e).modSeg i (SegEnd.takeBase epoch) := by
  unfold State.takeEntryBase
  dsimp only
  rw [lock]

theorem takeEntryBase_newEpoch_far {i : Arm} {s : State} (far : s.role i = .far) (epoch : Byte) (e : RawEntry) :
    s.takeEntryBase i .newEpoch epoch e = (s.modSeg i fun g => { g with unsure := true }).storeHeard i e := by
  unfold State.takeEntryBase
  dsimp only
  rw [far]

section
variable {i : Arm} {s : State} {e : RawEntry}

/-- An ordinary entry with small deltas (R95). -/
theorem viewed_counted (epoch : Byte) (small : (e.e - (s.seg i).eN).toNat ≤ 30 ∧ (e.x - (s.seg i).xN).toNat ≤ 30) :
    let sum : Int := ((s.seg i).occ : Int) + (e.e - (s.seg i).eN).toNat - (e.x - (s.seg i).xN).toNat
    Viewed i (s.entryCapacity i e) (min sum.toNat 15)
      (s.failsAt i (s.effCapacity i) sum ∨ s.retestFails i e (min sum.toNat 15)) False s
      (s.takeEntryBase i .ordinary epoch e) := by
  intro sum
  obtain ⟨counted, -⟩ := viewed_applyDeltas i e s
  exact (counted small).storeHeard (min_le_right _ _)

/-- An ordinary entry with a large delta (R95). -/
theorem viewed_uncounted (epoch : Byte) (large : ¬((e.e - (s.seg i).eN).toNat ≤ 30 ∧ (e.x - (s.seg i).xN).toNat ≤ 30))
    (occ : (s.seg i).occ ≤ 15) :
    Viewed i (s.entryCapacity i e) (s.seg i).occ True False s (s.takeEntryBase i .ordinary epoch e) := by
  obtain ⟨-, uncounted⟩ := viewed_applyDeltas i e s
  exact ((uncounted large).storeHeard occ).of_iff (by rw [true_or]) Iff.rfl

/-- A first entry at a lock end that is UNSURE: the far end's view is adopted (R110). -/
theorem viewed_adopted (epoch : Byte) (lock : s.role i = .lock) (unsure : (s.seg i).unsure = true) (occ : (s.seg i).occ ≤ 15)
    (entryOcc : e.occ.toNat ≤ 15) :
    Viewed i (s.entryCapacity i e) e.occ.toNat
      (s.retestFails i e (s.seg i).occ ∨ (e.occ.toNat ≠ (s.seg i).occ ∧ s.failsAt i (s.entryCapacity i e) e.occ.toNat)) False s
      (s.takeEntryBase i .first epoch e) := by
  have stored := ((Viewed.refl i s).storeHeard (e := e) occ).of_iff (by rw [false_or]) Iff.rfl
  rw [takeEntryBase_first_lock lock]
  refine Viewed.takeBase ?_ epoch
  split
  · next other =>
    have adopted := stored.takeView (e.occ.toNat : Int)
    rw [Int.toNat_natCast, min_eq_left entryOcc] at adopted
    have differs : e.occ.toNat ≠ (s.seg i).occ := by
      rw [← stored.occ]
      exact Ne.symm other.2
    exact adopted.of_iff (by simp [differs, State.retestFails, State.entryCapacity]) Iff.rfl
  · next same =>
    have view : e.occ.toNat = (s.seg i).occ := by
      rw [← stored.occ]
      by_contra differs
      exact same ⟨unsure, Ne.symm differs⟩
    rw [view]
    exact stored.of_iff (by simp [State.retestFails, State.entryCapacity]) Iff.rfl

/-- A first entry at another end (R110). -/
theorem viewed_first (epoch : Byte) (role : s.role i = .far ∨ (s.role i = .lock ∧ (s.seg i).unsure = false))
    (occ : (s.seg i).occ ≤ 15) :
    Viewed i (s.entryCapacity i e) (s.seg i).occ (s.retestFails i e (s.seg i).occ) False s
      (s.takeEntryBase i .first epoch e) := by
  have stored := ((Viewed.refl i s).storeHeard (e := e) occ).of_iff (by rw [false_or]) Iff.rfl
  rcases role with far | ⟨lock, sure⟩
  · rw [takeEntryBase_first_far far]
    exact stored
  · rw [takeEntryBase_first_lock lock, if_neg (by simp [sure])]
    exact stored.takeBase epoch

/-- The first entry of a new epoch (R110). -/
theorem viewed_newEpoch (epoch : Byte) (role : s.role i = .far ∨ s.role i = .lock) (occ : (s.seg i).occ ≤ 15) :
    Viewed i (s.entryCapacity i e) (s.seg i).occ (s.retestFails i e (s.seg i).occ) True s
      (s.takeEntryBase i .newEpoch epoch e) := by
  have stored := ((Viewed.refl i s).unsureSet.storeHeard (e := e) occ).of_iff (by rw [false_or]) Iff.rfl
  rcases role with far | lock
  · rw [takeEntryBase_newEpoch_far far]
    exact stored
  · rw [takeEntryBase_newEpoch_lock lock]
    exact stored.takeBase epoch

end

end Sys2Proof.Machine

/-! ## A neighbour's entry: the limit of a lock end (R98)

The records that an entry's work leaves at the end are followed by invariants of the record alone. Each change of the record
goes through `relimit`. -/

namespace Sys2Proof.Machine

/-- An invariant of the record that a view taken keeps. -/
def ViewInvariant (s : State) (i : Arm) (p : SegEnd → Prop) : Prop :=
  ∀ (g : SegEnd) (occ : Nat) (unsure : Bool), (g.unsure = true → unsure = true) → p g →
    p (s.relimit i g { g with occ := occ, unsure := unsure })

section
variable {s t : State} {i : Arm} {p q : SegEnd → Prop} {e : RawEntry}

theorem relimit_of_scu (scu : t.scu = s.scu) (old new : SegEnd) : t.relimit i old new = s.relimit i old new := by
  rw [relimit_congr scu]

theorem ViewInvariant.modSeg (h : ViewInvariant s i p) (scu : t.scu = s.scu) (start : p (t.seg i)) :
    p ((t.modSeg i fun g => { g with unsure := true }).seg i) := by
  rw [seg_modSeg, if_pos rfl, relimit_of_scu scu]
  exact h (t.seg i) (t.seg i).occ true (fun _ => rfl) start

theorem ViewInvariant.takeView (h : ViewInvariant s i p) (scu : t.scu = s.scu) (v : Int) (start : p (t.seg i)) :
    p ((t.takeView i v).seg i) := by
  rw [takeView_seg, if_pos rfl, relimit_of_scu scu]
  exact h (t.seg i) _ _ (fun unsure => by rw [unsure, Bool.or_true]) start

theorem ViewInvariant.applyDeltas (h : ViewInvariant s i p) (scu : t.scu = s.scu) (start : p (t.seg i)) :
    p ((t.applyDeltas i e).seg i) := by
  unfold State.applyDeltas
  dsimp only
  split
  · exact h.takeView scu _ start
  · exact h.modSeg scu start

/-- What the storing of an entry establishes, a retest keeps. -/
theorem ViewInvariant.storeHeard (h : ViewInvariant s i q) (scu : t.scu = s.scu)
    (hear : q (s.relimit i (t.seg i) ((t.seg i).hear e))) : q ((t.storeHeard i e).seg i) := by
  have stored : q ((t.modSeg i (SegEnd.hear e)).seg i) := by
    rw [seg_modSeg, if_pos rfl, relimit_of_scu scu]
    exact hear
  unfold State.storeHeard
  dsimp only
  split
  · exact stored
  · exact h.takeView (t := t.modSeg i (SegEnd.hear e)) scu _ stored

end

/-! ### The invariants -/

/-- An open limit is the one recomputed from the record (R98). -/
def Follows (s : State) (i : Arm) (g : SegEnd) : Prop := s.limitOpen i g = true → g.limit = g.openLimit (s.arm i).capacity

/-- The limit is closed, at `limit`. -/
def ShutAt (s : State) (i : Arm) (limit : Byte) (g : SegEnd) : Prop := s.limitOpen i g = false ∧ g.limit = limit

/-- E_n + R_n is `limit`, and a closed limit is that. -/
def ClosesAt (s : State) (i : Arm) (limit : Byte) (g : SegEnd) : Prop :=
  g.farCommitted = limit ∧ (s.limitOpen i g = false → g.limit = limit)

/-- The held limit and its epoch. -/
def HeldIs (limit epoch : Byte) (g : SegEnd) : Prop := g.heldLimit = limit ∧ g.heldEpoch = epoch

/-- The direction and the isolated flag. -/
def StandsAs (dir : Direction) (isolated : Bool) (g : SegEnd) : Prop := g.dir = dir ∧ g.isolated = isolated

section
variable (s : State) (i : Arm)

theorem limitOpen_relimit (old new : SegEnd) : s.limitOpen i (s.relimit i old new) = s.limitOpen i new := by
  obtain ⟨limit, same⟩ := relimit_fields s i old new
  rw [same]
  rfl

theorem relimit_of_open {new : SegEnd} (old : SegEnd) (isOpen : s.limitOpen i new = true) :
    s.relimit i old new = { new with limit := new.openLimit (s.arm i).capacity } := by
  unfold State.relimit
  rw [if_pos isOpen]

theorem relimit_closing {old new : SegEnd} (wasOpen : s.limitOpen i old = true) (closed : s.limitOpen i new = false) :
    s.relimit i old new = { new with limit := new.farCommitted } := by
  unfold State.relimit
  rw [if_neg (by simp [closed]), if_pos wasOpen]

theorem relimit_closed {old new : SegEnd} (wasClosed : s.limitOpen i old = false) (closed : s.limitOpen i new = false) :
    s.relimit i old new = new := by
  unfold State.relimit
  rw [if_neg (by simp [closed]), if_neg (by simp [wasClosed])]

theorem follows_relimit (old new : SegEnd) : Follows s i (s.relimit i old new) := by
  intro isOpen
  rw [limitOpen_relimit] at isOpen
  rw [relimit_of_open s i old isOpen]
  rfl

theorem follows_viewInvariant : ViewInvariant s i (Follows s i) := fun g _ _ _ _ => follows_relimit s i g _

/-- Becoming UNSURE opens no limit. -/
theorem limitOpen_of_surer {g : SegEnd} (occ : Nat) {unsure : Bool} (more : g.unsure = true → unsure = true)
    (closed : s.limitOpen i g = false) : s.limitOpen i { g with occ := occ, unsure := unsure } = false := by
  rw [← Bool.not_eq_true, limitOpen_iff] at closed ⊢
  rintro ⟨lock, sure, joined, part, inbound⟩
  refine closed ⟨lock, ?_, joined, part, inbound⟩
  by_contra was
  have now := more (by simpa using was)
  simp only at sure
  rw [now] at sure
  cases sure

theorem shutAt_viewInvariant (limit : Byte) : ViewInvariant s i (ShutAt s i limit) := fun g occ unsure more ⟨closed, at'⟩ => by
  have still := limitOpen_of_surer s i occ more closed
  rw [relimit_closed s i closed still]
  exact ⟨still, at'⟩

/-- A change of the record that keeps E_n, R_n and the limit. -/
theorem ClosesAt.relimit {limit : Byte} {g g' : SegEnd} (h : ClosesAt s i limit g) (eN : g'.eN = g.eN) (rN : g'.rN = g.rN)
    (kept : g'.limit = g.limit) : ClosesAt s i limit (s.relimit i g g') := by
  have far : g'.farCommitted = limit := by
    rw [SegEnd.farCommitted, eN, rN]
    exact h.1
  refine ⟨?_, fun closed => ?_⟩
  · obtain ⟨limit', same⟩ := relimit_fields s i g g'
    rw [same]
    exact far
  · rw [limitOpen_relimit] at closed
    cases was : s.limitOpen i g with
    | true =>
      rw [relimit_closing s i was closed]
      exact far
    | false =>
      rw [relimit_closed s i was closed, kept]
      exact h.2 was

theorem closesAt_viewInvariant (limit : Byte) : ViewInvariant s i (ClosesAt s i limit) :=
  fun _ _ _ _ h => h.relimit s i rfl rfl rfl

theorem heldIs_relimit {limit epoch : Byte} {g : SegEnd} (old : SegEnd) (h : HeldIs limit epoch g) :
    HeldIs limit epoch (s.relimit i old g) := by
  obtain ⟨limit', same⟩ := relimit_fields s i old g
  rw [same]
  exact h

theorem heldIs_viewInvariant (limit epoch : Byte) : ViewInvariant s i (HeldIs limit epoch) :=
  fun _ _ _ _ h => heldIs_relimit s i _ h

theorem standsAs_relimit {dir : Direction} {isolated : Bool} {g : SegEnd} (old : SegEnd) (h : StandsAs dir isolated g) :
    StandsAs dir isolated (s.relimit i old g) := by
  obtain ⟨limit', same⟩ := relimit_fields s i old g
  rw [same]
  exact h

theorem standsAs_viewInvariant (dir : Direction) (isolated : Bool) : ViewInvariant s i (StandsAs dir isolated) :=
  fun _ _ _ _ h => standsAs_relimit s i _ h

theorem limitEpoch_viewInvariant (epoch : Byte) : ViewInvariant s i (fun g => g.limitEpoch = epoch) := fun g occ unsure _ h => by
  obtain ⟨limit', same⟩ := relimit_fields s i g { g with occ := occ, unsure := unsure }
  rw [same]
  exact h

end

/-! ### The direction -/

/-- An invariant of the record that entering a direction keeps. -/
theorem steer_invariant {s t : State} {i : Arm} {p : SegEnd → Prop}
    (enter : ∀ g d, p g → p (s.relimit i g (g.enterDirection d))) (n : Nat) (scu : t.scu = s.scu) (start : p (t.seg i)) :
    p ((t.steer n i).seg i) := by
  induction n generalizing t with
  | zero => exact start
  | succ n ih =>
    cases row : t.row i with
    | none =>
      rw [steer_none row]
      exact start
    | some d =>
      rw [steer_some row]
      refine ih scu ?_
      rw [seg_modSeg, if_pos rfl, relimit_of_scu scu]
      exact enter _ d start

theorem evaluate_invariant {s t : State} {i : Arm} {p : SegEnd → Prop}
    (enter : ∀ g d, p g → p (s.relimit i g (g.enterDirection d))) (scu : t.scu = s.scu) (start : p (t.seg i)) :
    p ((t.evaluate i).seg i) := by
  unfold State.evaluate
  split
  · exact steer_invariant enter 4 scu start
  · exact start

theorem follows_evaluate {s t : State} {i : Arm} (scu : t.scu = s.scu) (start : Follows s i (t.seg i)) :
    Follows s i ((t.evaluate i).seg i) :=
  evaluate_invariant (fun g _ _ => follows_relimit s i g _) scu start

theorem closesAt_evaluate {s t : State} {i : Arm} {limit : Byte} (scu : t.scu = s.scu) (start : ClosesAt s i limit (t.seg i)) :
    ClosesAt s i limit ((t.evaluate i).seg i) :=
  evaluate_invariant (p := ClosesAt s i limit) (fun g d h => by
    rw [enterDirection_eq]
    exact h.relimit s i rfl rfl rfl) scu start

theorem heldIs_evaluate {s t : State} {i : Arm} {limit epoch : Byte} (scu : t.scu = s.scu) (start : HeldIs limit epoch (t.seg i)) :
    HeldIs limit epoch ((t.evaluate i).seg i) :=
  evaluate_invariant (p := HeldIs limit epoch) (fun g d h => heldIs_relimit s i _ (by rw [enterDirection_eq]; exact h)) scu start

theorem limitEpoch_evaluate {s t : State} {i : Arm} (scu : t.scu = s.scu) :
    ((t.evaluate i).seg i).limitEpoch = (t.seg i).limitEpoch :=
  evaluate_invariant (s := s) (p := fun g => g.limitEpoch = (t.seg i).limitEpoch) (fun g d h => by
    obtain ⟨limit', same⟩ := relimit_fields s i g (g.enterDirection d)
    rw [same, enterDirection_eq]
    exact h) scu rfl

/-- No row leads away from INBOUND with far demand and a fresh hold time (R101). -/
theorem nextDirection_inbound_entered {g : SegEnd} {own far : Nat} (dir : g.dir = .inbound) (hold : g.hold = .running 0)
    (demand : far ≠ 0) : g.nextDirection own far = none := by
  unfold SegEnd.nextDirection
  rw [dir]
  simp [hold, demand]

/-- A row that leads to INBOUND needs far demand (R101). -/
theorem far_of_inbound_row {g : SegEnd} {own far : Nat} (row : g.nextDirection own far = some .inbound) : far ≠ 0 := by
  rintro rfl
  unfold SegEnd.nextDirection at row
  cases dir : g.dir <;> simp only [dir] at row <;> grind

/-- From a direction that is not INBOUND the table leads either to INBOUND, or past closed limits that stay. -/
theorem steer_from_closed {t : State} {i : Arm} (n : Nat) (away : (t.seg i).dir ≠ .inbound) :
    ((t.steer n i).seg i).dir = .inbound
      ∨ (((t.steer n i).seg i).dir ≠ .inbound ∧ ((t.steer n i).seg i).limit = (t.seg i).limit) := by
  induction n generalizing t with
  | zero => exact .inr ⟨away, rfl⟩
  | succ n ih =>
    cases row : t.row i with
    | none =>
      rw [steer_none row]
      exact .inr ⟨away, rfl⟩
    | some d =>
      rw [steer_some row]
      have seg : (t.modSeg i (SegEnd.enterDirection d)).seg i = t.relimit i (t.seg i) ((t.seg i).enterDirection d) := by
        rw [seg_modSeg, if_pos rfl]
      obtain ⟨limit', fields⟩ := relimit_fields t i (t.seg i) ((t.seg i).enterDirection d)
      by_cases inbound : d = .inbound
      · subst inbound
        have settled : (t.modSeg i (SegEnd.enterDirection .inbound)).row i = none := by
          obtain ⟨demand, far, -⟩ := entered_same t i .inbound
          rw [State.row, demand, far, seg, fields]
          exact nextDirection_inbound_entered rfl rfl (far_of_inbound_row row)
        have stays : (t.modSeg i (SegEnd.enterDirection .inbound)).steer n i = t.modSeg i (SegEnd.enterDirection .inbound) := by
          cases n with
          | zero => rfl
          | succ n => exact steer_none settled
        rw [stays, seg, fields]
        exact .inl rfl
      · have closed (g : SegEnd) (dir : g.dir ≠ .inbound) : t.limitOpen i g = false := by
          rw [← Bool.not_eq_true, limitOpen_iff]
          rintro ⟨-, -, -, -, inbound⟩
          exact dir inbound
        have dir : ((t.seg i).enterDirection d).dir = d := (enterDirection_keeps d (t.seg i)).2.2.2.2.2.2.2.2.2.2.2.2.2.2.2.2.2.2.2.2.2
        have kept := relimit_closed t i (closed _ away) (closed ((t.seg i).enterDirection d) (by rw [dir]; exact inbound))
        have limit : ((t.modSeg i (SegEnd.enterDirection d)).seg i).limit = (t.seg i).limit := by
          rw [seg, kept, enterDirection_eq]
        rw [← limit]
        exact ih (by rw [seg, kept, dir]; exact inbound)

end Sys2Proof.Machine

/-! ## A neighbour's entry: the role-specific work and the end of isolation (R95, R98, R99, R105, R107) -/

namespace Sys2Proof.Machine

/-- A closed limit after it has fallen to a lower E_n + R_n, if that is lower (R98). -/
def loweredTo (heard limit : Byte) : Byte := if (heard - limit).toInt < 0 then heard else limit

theorem lower_eq (g : SegEnd) : g.lower = { g with limit := loweredTo g.farCommitted g.limit } := by
  unfold SegEnd.lower loweredTo
  split <;> rfl

theorem loweredTo_self (limit : Byte) : loweredTo limit limit = limit := by
  unfold loweredTo
  split <;> rfl

/-- An end with a closed limit at which isolation, if it stands, either stays or does not hide an INBOUND direction. -/
structure StaysShut (s : State) (i : Arm) (isolating : Bool) (limit : Byte) (g : SegEnd) : Prop where
  closed : s.limitOpen i g = false
  limit : g.limit = limit
  hidden : g.isolated = true → isolating = true ∨ g.dir ≠ .inbound

section
variable {s t : State} {i : Arm} {e : RawEntry} {limit : Byte}

theorem takeEntryRole_lock (lock : t.role i = .lock) (e : RawEntry) : t.takeEntryRole i e =
    (if t.limitOpen i (t.seg i) then t else t.modSeg i SegEnd.lower).evaluate i := by
  unfold State.takeEntryRole
  rw [lock]

theorem takeEntryRole_far (far : t.role i = .far) (e : RawEntry) : t.takeEntryRole i e =
    (t.modSeg i fun g => { g with heldLimit := e.lim, heldEpoch := e.limEpoch }).follow i e := by
  unfold State.takeEntryRole
  rw [far]

theorem limitOpen_of_scu (scu : t.scu = s.scu) (g : SegEnd) : t.limitOpen i g = s.limitOpen i g :=
  limitOpen_congr (congrArg Scu.cfg scu) (congrArg Scu.part scu) i g

theorem evaluate_scu (i : Arm) (s : State) : (s.evaluate i).scu = s.scu := (endStep_evaluate i s).scu

/-! ### An invariant through the role-specific work and the end of isolation -/

theorem follows_takeEntryRole (scu : t.scu = s.scu) (lock : s.role i = .lock) (start : Follows s i (t.seg i)) :
    Follows s i ((t.takeEntryRole i e).seg i) := by
  rw [takeEntryRole_lock ((role_congr (congrArg Scu.cfg scu)).trans lock)]
  split
  · exact follows_evaluate scu start
  · refine follows_evaluate (t := t.modSeg i SegEnd.lower) scu ?_
    rw [seg_modSeg, if_pos rfl, relimit_of_scu scu]
    exact follows_relimit s i _ _

theorem follows_clearIsolation (scu : t.scu = s.scu) (start : Follows s i (t.seg i)) :
    Follows s i ((t.clearIsolation i).seg i) := by
  unfold State.clearIsolation
  split
  · exact start
  · refine follows_evaluate (t := t.modSeg i fun g => { g with isolated := false }) scu ?_
    rw [seg_modSeg, if_pos rfl, relimit_of_scu scu]
    exact follows_relimit s i _ _

theorem closesAt_takeEntryRole (scu : t.scu = s.scu) (lock : s.role i = .lock) (start : ClosesAt s i limit (t.seg i)) :
    ClosesAt s i limit ((t.takeEntryRole i e).seg i) := by
  rw [takeEntryRole_lock ((role_congr (congrArg Scu.cfg scu)).trans lock)]
  split
  · exact closesAt_evaluate scu start
  · next closed =>
    refine closesAt_evaluate (t := t.modSeg i SegEnd.lower) scu ?_
    rw [limitOpen_of_scu scu, Bool.not_eq_true] at closed
    have same : (t.seg i).lower = t.seg i := by
      rw [lower_eq, start.1, start.2 closed, loweredTo_self, ← start.2 closed]
    rw [seg_modSeg, if_pos rfl, relimit_of_scu scu, same]
    exact start.relimit s i rfl rfl rfl

theorem closesAt_clearIsolation (scu : t.scu = s.scu) (start : ClosesAt s i limit (t.seg i)) :
    ClosesAt s i limit ((t.clearIsolation i).seg i) := by
  unfold State.clearIsolation
  split
  · exact start
  · refine closesAt_evaluate (t := t.modSeg i fun g => { g with isolated := false }) scu ?_
    rw [seg_modSeg, if_pos rfl, relimit_of_scu scu]
    exact start.relimit s i rfl rfl rfl

/-- At a lock end the held limit and the limit epoch stay through the last steps. -/
theorem lineKept_takeEntryRole (lock : t.role i = .lock) (e : RawEntry) :
    ((t.takeEntryRole i e).seg i).heldLimit = (t.seg i).heldLimit ∧ ((t.takeEntryRole i e).seg i).heldEpoch = (t.seg i).heldEpoch
    ∧ ((t.takeEntryRole i e).seg i).limitEpoch = (t.seg i).limitEpoch := by
  have lowered : ∀ g, g = t ∨ g = t.modSeg i SegEnd.lower → (g.seg i).heldLimit = (t.seg i).heldLimit
      ∧ (g.seg i).heldEpoch = (t.seg i).heldEpoch ∧ (g.seg i).limitEpoch = (t.seg i).limitEpoch := by
    rintro g (rfl | rfl)
    · exact ⟨rfl, rfl, rfl⟩
    · have seg := seg_modSeg_same t i SegEnd.lower
      rw [seg, lower_eq]
      exact ⟨rfl, rfl, rfl⟩
  rw [takeEntryRole_lock lock]
  obtain ⟨limit', epoch, limitEpoch⟩ := lowered (if t.limitOpen i (t.seg i) then t else t.modSeg i SegEnd.lower) (by split <;> simp)
  generalize (if t.limitOpen i (t.seg i) then t else t.modSeg i SegEnd.lower) = u at *
  have held := heldIs_evaluate (s := u) (t := u) (i := i) rfl ⟨rfl, rfl⟩
  exact ⟨held.1.trans limit', held.2.trans epoch, (limitEpoch_evaluate (s := u) rfl).trans limitEpoch⟩

theorem lineKept_clearIsolation (i : Arm) (t : State) :
    ((t.clearIsolation i).seg i).heldLimit = (t.seg i).heldLimit ∧ ((t.clearIsolation i).seg i).heldEpoch = (t.seg i).heldEpoch
    ∧ ((t.clearIsolation i).seg i).limitEpoch = (t.seg i).limitEpoch := by
  unfold State.clearIsolation
  split
  · exact ⟨rfl, rfl, rfl⟩
  · have seg := seg_modSeg_same t i fun g => { g with isolated := false }
    have held := heldIs_evaluate (s := t) (t := t.modSeg i fun g => { g with isolated := false }) (i := i) rfl ⟨rfl, rfl⟩
    have epoch := limitEpoch_evaluate (s := t) (t := t.modSeg i fun g => { g with isolated := false }) (i := i) rfl
    rw [seg] at held epoch
    exact ⟨held.1, held.2, epoch⟩

/-! ### A closed limit -/

/-- The row at an INBOUND end looks neither at the isolated flag nor at the limit (R101). -/
theorem nextDirection_inbound_fields {g : SegEnd} (inbound : g.dir = .inbound) (isolated : Bool) (limit : Byte) (own far : Nat) :
    SegEnd.nextDirection own far { g with isolated, limit } = g.nextDirection own far := by
  rw [(nextDirection_table { g with isolated, limit } own far).2.2.2.1 inbound, (nextDirection_table g own far).2.2.2.1 inbound]

/-- Where the direction is evaluated at an end whose limit is closed: the limit stays closed as it was, or the end is INBOUND
with no further row. -/
theorem evaluate_shut {isolating : Bool} (scu : t.scu = s.scu) (lock : s.role i = .lock)
    (start : StaysShut s i isolating limit (t.seg i)) :
    StaysShut s i isolating limit ((t.evaluate i).seg i)
      ∨ (s.limitOpen i ((t.evaluate i).seg i) = true ∧ (t.evaluate i).row i = none) := by
  cases steers : t.steers i with
  | false =>
    rw [evaluate_of_not_steers steers]
    exact .inl start
  | true =>
    obtain ⟨-, -, settled⟩ := evaluate_of_steers steers
    obtain ⟨-, -, -, sure, joined, part⟩ := steers_iff.1 steers
    rw [show t.part = s.part from congrArg Scu.part scu] at part
    have away : (t.seg i).dir ≠ .inbound := fun inbound => by
      have isOpen : s.limitOpen i (t.seg i) = true := limitOpen_iff.2 ⟨lock, sure, joined, part, inbound⟩
      rw [start.closed] at isOpen
      cases isOpen
    obtain ⟨-, -, -, -, unsure, isolated, -⟩ := evaluate_counts i i t
    have steered : t.evaluate i = t.steer 4 i := if_pos steers
    rcases steer_from_closed 4 away with inbound | ⟨stays, kept⟩
    · rw [← steered] at inbound
      exact .inr ⟨limitOpen_iff.2 ⟨lock, unsure.trans sure, isolated.trans joined, part, inbound⟩, settled⟩
    · rw [← steered] at stays kept
      refine .inl ⟨?_, kept.trans start.limit, fun h => ?_⟩
      · rw [← Bool.not_eq_true, limitOpen_iff]
        rintro ⟨-, -, -, -, inbound⟩
        exact stays inbound
      · rw [isolated, joined] at h
        cases h

/-- The last step of an entry leaves a limit that is still closed where it was. -/
theorem clearIsolation_shut (scu : t.scu = s.scu) (lock : s.role i = .lock)
    (start : StaysShut s i (t.nbr i).isolating limit (t.seg i) ∨ (s.limitOpen i (t.seg i) = true ∧ t.row i = none))
    (closed : s.limitOpen i ((t.clearIsolation i).seg i) = false) : ((t.clearIsolation i).seg i).limit = limit := by
  have seg := seg_modSeg_same t i fun g => { g with isolated := false }
  have relimit : ((t.modSeg i fun g => { g with isolated := false }).seg i)
      = s.relimit i (t.seg i) { t.seg i with isolated := false } := by
    rw [seg_modSeg, if_pos rfl, relimit_of_scu scu]
  unfold State.clearIsolation at closed ⊢
  split at closed
  · next isolating =>
    rw [if_pos isolating]
    rcases start with shut | ⟨isOpen, -⟩
    · exact shut.limit
    · rw [isOpen] at closed
      cases closed
  next live =>
  rw [if_neg live]
  rcases start with shut | ⟨isOpen, settled⟩
  · have still : s.limitOpen i { t.seg i with isolated := false } = false := by
      have was := shut.closed
      rw [← Bool.not_eq_true, limitOpen_iff] at was ⊢
      rintro ⟨-, sure, -, part, inbound⟩
      refine was ⟨lock, sure, ?_, part, inbound⟩
      by_contra isolated
      exact (shut.hidden (by simpa using isolated)).elim live fun away => away inbound
    rw [relimit_closed s i shut.closed still] at relimit
    have cleared : StaysShut s i false limit ((t.modSeg i fun g => { g with isolated := false }).seg i) := by
      rw [relimit]
      exact ⟨still, shut.limit, nofun⟩
    rcases evaluate_shut (t := t.modSeg i fun g => { g with isolated := false }) scu lock cleared with kept | ⟨isOpen, -⟩
    · exact kept.limit
    · rw [isOpen] at closed
      cases closed
  · have unchanged : (t.modSeg i fun g => { g with isolated := false }).row i = none := by
      have far : (t.modSeg i fun g => { g with isolated := false }).farDemand i = t.farDemand i :=
        farDemand_congr rfl (by rw [seg])
      have demand : (t.modSeg i fun g => { g with isolated := false }).demand i = t.demand i := rfl
      rw [State.row, demand, far, seg]
      exact (nextDirection_inbound_fields (limitOpen_iff.1 isOpen).2.2.2.2 _ _ _ _).trans settled
    rw [evaluate_of_no_row unchanged, relimit, limitOpen_relimit] at closed
    obtain ⟨-, sure, -, part, inbound⟩ := limitOpen_iff.1 isOpen
    have still : s.limitOpen i { t.seg i with isolated := false } = true := limitOpen_iff.2 ⟨lock, sure, rfl, part, inbound⟩
    rw [still] at closed
    cases closed

/-- At a lock end whose limit is closed when an entry's role-specific work begins, the limit only falls to the entry's
E_n + R_n (R98). -/
theorem shut_lowered (scu : t.scu = s.scu) (lock : s.role i = .lock)
    (start : StaysShut s i (t.nbr i).isolating limit (t.seg i))
    (closed : s.limitOpen i (((t.takeEntryRole i e).clearIsolation i).seg i) = false) :
    (((t.takeEntryRole i e).clearIsolation i).seg i).limit = loweredTo (t.seg i).farCommitted limit := by
  have notOpen : ¬t.limitOpen i (t.seg i) = true := by
    rw [limitOpen_of_scu scu, start.closed]
    exact nofun
  have role : t.role i = .lock := (role_congr (congrArg Scu.cfg scu)).trans lock
  rw [takeEntryRole_lock role, if_neg notOpen] at closed ⊢
  have still : s.limitOpen i (t.seg i).lower = false := by
    rw [lower_eq]
    exact start.closed
  have lowered : (t.modSeg i SegEnd.lower).seg i = { t.seg i with limit := loweredTo (t.seg i).farCommitted limit } := by
    rw [seg_modSeg, if_pos rfl, relimit_of_scu scu, relimit_closed s i start.closed still, lower_eq, start.limit]
  have shut : StaysShut s i (t.nbr i).isolating (loweredTo (t.seg i).farCommitted limit) ((t.modSeg i SegEnd.lower).seg i) := by
    rw [lowered]
    exact ⟨start.closed, rfl, start.hidden⟩
  have evaluated := evaluate_shut (t := t.modSeg i SegEnd.lower) scu lock shut
  have nbr : ((t.modSeg i SegEnd.lower).evaluate i).nbr i = t.nbr i := by
    rw [State.nbr, (endStep_evaluate i _).nbrs]
    rfl
  exact clearIsolation_shut (t := (t.modSeg i SegEnd.lower).evaluate i) ((evaluate_scu i _).trans scu) lock (by rw [nbr]; exact evaluated) closed

end

end Sys2Proof.Machine

/-! ## A neighbour's entry: the limits of a lock end, by the kind of the entry (R98, R110) -/

namespace Sys2Proof.Machine

theorem limitOpen_hear (s : State) (i : Arm) (e : RawEntry) (g : SegEnd) : s.limitOpen i (g.hear e) = s.limitOpen i g := rfl

theorem staysShut_viewInvariant (s : State) (i : Arm) (isolating : Bool) (limit : Byte) :
    ViewInvariant s i (StaysShut s i isolating limit) := fun g occ unsure more ⟨closed, at', hidden⟩ => by
  obtain ⟨still, kept⟩ := shutAt_viewInvariant s i limit g occ unsure more ⟨closed, at'⟩
  have stands := standsAs_viewInvariant s i g.dir g.isolated g occ unsure more ⟨rfl, rfl⟩
  exact ⟨still, kept, by rw [stands.1, stands.2]; exact hidden⟩

theorem viewInvariant_true (s : State) (i : Arm) : ViewInvariant s i fun _ => True := fun _ _ _ _ _ => trivial

theorem ViewInvariant.and {s : State} {i : Arm} {p q : SegEnd → Prop} (hp : ViewInvariant s i p) (hq : ViewInvariant s i q) :
    ViewInvariant s i fun g => p g ∧ q g := fun g occ unsure more h => ⟨hp g occ unsure more h.1, hq g occ unsure more h.2⟩

section
variable {w t : State} {i : Arm} {p q r : SegEnd → Prop} {e : RawEntry} {kind : EntryKind} {epoch limit : Byte}

/-! ### Invariants through the base part -/

theorem ordinary_invariant (epoch : Byte) (hp : ViewInvariant w i p) (hq : ViewInvariant w i q)
    (hear : ∀ g, p g → q (w.relimit i g (g.hear e))) (start : p (w.seg i)) :
    q ((w.takeEntryBase i .ordinary epoch e).seg i) :=
  hq.storeHeard (t := w.applyDeltas i e) (endStep_applyDeltas i e w).scu (hear _ (hp.applyDeltas rfl start))

/-- A first entry and the first of a new epoch at a lock end: hearing the entry, then a new base. -/
theorem rebase_invariant (lock : w.role i = .lock) (rebase : kind ≠ .ordinary) (hp : ViewInvariant w i p)
    (hq : ViewInvariant w i q) (hear : ∀ g, p g → q (w.relimit i g (g.hear e)))
    (base : ∀ g, q g → r (w.relimit i g (g.takeBase epoch))) (start : p (w.seg i)) :
    r ((w.takeEntryBase i kind epoch e).seg i) := by
  have rebased {t : State} (scu : t.scu = w.scu) (h : q (t.seg i)) : r ((t.modSeg i (SegEnd.takeBase epoch)).seg i) := by
    rw [seg_modSeg, if_pos rfl, relimit_of_scu scu]
    exact base _ h
  cases kind with
  | ordinary => exact absurd rfl rebase
  | first =>
    have scu := (entryStored_storeHeard i e w).scu
    have stored : q ((w.storeHeard i e).seg i) := hq.storeHeard rfl (hear _ start)
    rw [takeEntryBase_first_lock lock]
    split
    · exact rebased ((endStep_takeView i _ _).scu.trans scu) (hq.takeView scu _ stored)
    · exact rebased scu stored
  | newEpoch =>
    have marked : p ((w.modSeg i fun g => { g with unsure := true }).seg i) := hp.modSeg rfl start
    have stored := hq.storeHeard (t := w.modSeg i fun g => { g with unsure := true }) (e := e) rfl (hear _ marked)
    rw [takeEntryBase_newEpoch_lock lock]
    exact rebased (entryStored_storeHeard i e (w.modSeg i fun g => { g with unsure := true })).scu stored

theorem takeEntryBase_scu (i : Arm) (kind : EntryKind) (epoch : Byte) (e : RawEntry) (w : State) :
    (w.takeEntryBase i kind epoch e).scu = w.scu := (entryStored_takeEntryBase i kind epoch e w).scu

theorem takeEntryRole_scu (i : Arm) (e : RawEntry) (w : State) : (w.takeEntryRole i e).scu = w.scu :=
  (endStep_takeEntryRole i e w).scu

/-- An open limit follows the record after any entry (R98). -/
theorem takeEntry_follows (lock : w.role i = .lock) (kind : EntryKind) (epoch : Byte) (e : RawEntry) :
    Follows w i ((w.takeEntry i kind epoch e).seg i) := by
  have base : Follows w i ((w.takeEntryBase i kind epoch e).seg i) := by
    by_cases ordinary : kind = .ordinary
    · subst ordinary
      exact ordinary_invariant epoch (viewInvariant_true w i) (follows_viewInvariant w i)
        (fun g _ => follows_relimit w i g _) trivial
    · exact rebase_invariant lock ordinary (viewInvariant_true w i) (viewInvariant_true w i) (fun _ _ => trivial)
        (fun g _ => follows_relimit w i g _) trivial
  have scu := takeEntryBase_scu i kind epoch e w
  exact follows_clearIsolation ((takeEntryRole_scu i e _).trans scu) (follows_takeEntryRole scu lock base)

/-- The held limit is a matter of far ends (R99). -/
theorem takeEntry_held (lock : w.role i = .lock) (kind : EntryKind) (epoch : Byte) (e : RawEntry) :
    HeldIs (w.seg i).heldLimit (w.seg i).heldEpoch ((w.takeEntry i kind epoch e).seg i) := by
  have base : HeldIs (w.seg i).heldLimit (w.seg i).heldEpoch ((w.takeEntryBase i kind epoch e).seg i) := by
    have held := heldIs_viewInvariant w i (w.seg i).heldLimit (w.seg i).heldEpoch
    have hear : ∀ g, HeldIs (w.seg i).heldLimit (w.seg i).heldEpoch g →
        HeldIs (w.seg i).heldLimit (w.seg i).heldEpoch (w.relimit i g (g.hear e)) := fun g h => heldIs_relimit w i g h
    by_cases ordinary : kind = .ordinary
    · subst ordinary
      exact ordinary_invariant epoch held held hear ⟨rfl, rfl⟩
    · exact rebase_invariant lock ordinary held held hear (fun g h => heldIs_relimit w i g h) ⟨rfl, rfl⟩
  have scu := takeEntryBase_scu i kind epoch e w
  have role : (w.takeEntryBase i kind epoch e).role i = .lock := (role_congr (congrArg Scu.cfg scu)).trans lock
  obtain ⟨limit, epoch', -⟩ := lineKept_takeEntryRole role e
  obtain ⟨limit', epoch'', -⟩ := lineKept_clearIsolation i ((w.takeEntryBase i kind epoch e).takeEntryRole i e)
  exact ⟨limit'.trans (limit.trans base.1), epoch''.trans (epoch'.trans base.2)⟩

/-- The last two steps keep the limit epoch. -/
theorem takeEntry_limitEpoch (lock : w.role i = .lock) (kind : EntryKind) (epoch : Byte) (e : RawEntry) :
    ((w.takeEntry i kind epoch e).seg i).limitEpoch = ((w.takeEntryBase i kind epoch e).seg i).limitEpoch := by
  have scu := takeEntryBase_scu i kind epoch e w
  have role : (w.takeEntryBase i kind epoch e).role i = .lock := (role_congr (congrArg Scu.cfg scu)).trans lock
  obtain ⟨-, -, kept⟩ := lineKept_takeEntryRole role e
  obtain ⟨-, -, kept'⟩ := lineKept_clearIsolation i ((w.takeEntryBase i kind epoch e).takeEntryRole i e)
  exact kept'.trans kept

/-! ### A new base -/

theorem farCommitted_hear (e : RawEntry) (g : SegEnd) : (g.hear e).farCommitted = e.e + e.r := by
  unfold SegEnd.farCommitted SegEnd.hear
  dsimp only
  rw [BitVec.ofNat_toNat, BitVec.setWidth_eq]

theorem farCommitted_relimit (s : State) (i : Arm) (old new : SegEnd) :
    (s.relimit i old new).farCommitted = new.farCommitted := by
  obtain ⟨limit', same⟩ := relimit_fields s i old new
  rw [same]
  rfl

theorem farCommitted_viewInvariant (w : State) (i : Arm) (limit : Byte) : ViewInvariant w i fun g => g.farCommitted = limit :=
  fun g _ _ _ h => (farCommitted_relimit w i g _).trans h

/-- A new base takes the neighbour's epoch as the limit's, and E_n + R_n of the entry as a limit that is closed (R98, R110). -/
theorem rebase_limit (lock : w.role i = .lock) (rebase : kind ≠ .ordinary) (epoch : Byte) (e : RawEntry) :
    ((w.takeEntry i kind epoch e).seg i).limitEpoch = epoch
    ∧ (w.limitOpen i ((w.takeEntry i kind epoch e).seg i) = false → ((w.takeEntry i kind epoch e).seg i).limit = e.e + e.r) := by
  have based : ∀ g, g.farCommitted = e.e + e.r →
      (w.relimit i g (g.takeBase epoch)).limitEpoch = epoch
      ∧ ClosesAt w i (e.e + e.r) (w.relimit i g (g.takeBase epoch)) := by
    intro g heard
    obtain ⟨limit', same⟩ := relimit_fields w i g (g.takeBase epoch)
    have far : (w.relimit i g (g.takeBase epoch)).farCommitted = e.e + e.r := (farCommitted_relimit w i _ _).trans heard
    refine ⟨by rw [same]; rfl, far, fun closed => ?_⟩
    rw [limitOpen_relimit] at closed
    cases was : w.limitOpen i g with
    | true =>
      rw [relimit_closing w i was closed]
      exact heard
    | false =>
      rw [relimit_closed w i was closed]
      exact heard
  obtain ⟨limitEpoch, closes⟩ := rebase_invariant (r := fun g => g.limitEpoch = epoch ∧ ClosesAt w i (e.e + e.r) g) lock rebase (viewInvariant_true w i)
    (farCommitted_viewInvariant w i (e.e + e.r))
    (fun g _ => (farCommitted_relimit w i g _).trans (farCommitted_hear e g)) based trivial
  have scu := takeEntryBase_scu i kind epoch e w
  have final := closesAt_clearIsolation ((takeEntryRole_scu i e _).trans scu) (closesAt_takeEntryRole (e := e) scu lock closes)
  exact ⟨(takeEntry_limitEpoch lock kind epoch e).trans limitEpoch, final.2⟩

/-! ### An ordinary entry -/

theorem ordinary_limitEpoch (lock : w.role i = .lock) (epoch : Byte) (e : RawEntry) :
    ((w.takeEntry i .ordinary epoch e).seg i).limitEpoch = (w.seg i).limitEpoch := by
  have kept := limitEpoch_viewInvariant w i (w.seg i).limitEpoch
  refine (takeEntry_limitEpoch lock .ordinary epoch e).trans (ordinary_invariant epoch kept kept (fun g h => ?_) rfl)
  obtain ⟨limit', same⟩ := relimit_fields w i g (g.hear e)
  rw [same]
  exact h

theorem staysShut_hear {isolating : Bool} {g : SegEnd} (h : StaysShut w i isolating limit g) (e : RawEntry) :
    StaysShut w i isolating limit (w.relimit i g (g.hear e)) := by
  rw [relimit_closed w i h.closed (by rw [limitOpen_hear]; exact h.closed)]
  exact ⟨h.closed, h.limit, h.hidden⟩

/-- An entry stored at an end whose limit is closed: the limit only falls to the entry's E_n + R_n (R98). -/
theorem stored_shut (only : EndOnly i w t) (lock : w.role i = .lock)
    (shut : StaysShut w i (w.nbr i).isolating limit (t.seg i))
    (closed : w.limitOpen i ((((t.storeHeard i e).takeEntryRole i e).clearIsolation i).seg i) = false) :
    ((((t.storeHeard i e).takeEntryRole i e).clearIsolation i).seg i).limit = loweredTo (e.e + e.r) limit := by
  have stored := entryStored_storeHeard i e t
  have still := (staysShut_viewInvariant w i (w.nbr i).isolating limit).storeHeard (e := e) only.scu (staysShut_hear shut e)
  have nbr : (t.storeHeard i e).nbr i = w.nbr i := by rw [State.nbr, stored.nbrs, only.nbrs, State.nbr]
  have heard : ((t.storeHeard i e).seg i).farCommitted = e.e + e.r := by
    rw [SegEnd.farCommitted, stored.hears.eN, stored.hears.rN, BitVec.ofNat_toNat, BitVec.setWidth_eq]
  rw [← heard]
  exact shut_lowered (stored.scu.trans only.scu) lock (by rw [nbr]; exact still) closed

/-- An ordinary entry at an end whose limit is closed (R98). -/
theorem ordinary_limit_closed (lock : w.role i = .lock) (epoch : Byte)
    (shut : StaysShut w i (w.nbr i).isolating limit (w.seg i))
    (closed : w.limitOpen i ((w.takeEntry i .ordinary epoch e).seg i) = false) :
    ((w.takeEntry i .ordinary epoch e).seg i).limit = loweredTo (e.e + e.r) limit := by
  have deltas := endStep_applyDeltas i e w
  exact stored_shut deltas.toEndOnly lock
    ((staysShut_viewInvariant w i (w.nbr i).isolating limit).applyDeltas rfl shut) closed

/-- An ordinary entry at an end that was open until the report, or is: the deltas decide with which E_n + R_n the limit closes
(R98). -/
theorem ordinary_limit_closing (lock : w.role i = .lock) (epoch : Byte) (closes : ClosesAt w i limit (w.seg i))
    (hidden : (w.seg i).isolated = true → (w.nbr i).isolating = true ∨ (w.seg i).dir ≠ .inbound)
    (closed : w.limitOpen i ((w.takeEntry i .ordinary epoch e).seg i) = false) :
    ((w.takeEntry i .ordinary epoch e).seg i).limit =
      if w.limitOpen i ((w.applyDeltas i e).seg i) then e.e + e.r else loweredTo (e.e + e.r) limit := by
  have deltas := endStep_applyDeltas i e w
  have after := (closesAt_viewInvariant w i limit).applyDeltas (e := e) rfl closes
  have stands := (standsAs_viewInvariant w i (w.seg i).dir (w.seg i).isolated).applyDeltas (e := e) (t := w) rfl ⟨rfl, rfl⟩
  split
  · next isOpen =>
    have hear : ClosesAt w i (e.e + e.r) (w.relimit i ((w.applyDeltas i e).seg i) (((w.applyDeltas i e).seg i).hear e)) := by
      refine ⟨(farCommitted_relimit w i _ _).trans (farCommitted_hear e _), fun shut => ?_⟩
      rw [limitOpen_relimit, limitOpen_hear, isOpen] at shut
      cases shut
    have stored := (closesAt_viewInvariant w i (e.e + e.r)).storeHeard deltas.scu hear
    have scu := takeEntryBase_scu i .ordinary epoch e w
    exact (closesAt_clearIsolation ((takeEntryRole_scu i e _).trans scu) (closesAt_takeEntryRole (e := e) scu lock stored)).2 closed
  · next shut =>
    have shut := Bool.not_eq_true _ ▸ shut
    exact stored_shut deltas.toEndOnly lock
      ⟨shut, after.2 shut, by rw [stands.1, stands.2]; exact hidden⟩ closed

end

end Sys2Proof.Machine

/-! ## A neighbour's entry as a whole: the view by kind, and a far end (R95, R96, R99, R107) -/

namespace Sys2Proof.Machine

theorem failsAt_iff {s : State} {i : Arm} (role : s.role i = .lock ∨ s.role i = .far) (cap : Nat) (v : Int) :
    s.failsAt i cap v ↔ v < 0 ∨ (cap : Int) < if s.role i = .lock then v + (s.seg i).r else v := by
  unfold State.failsAt
  rcases role with lock | far
  · rw [lock, if_neg nofun, if_pos rfl]
  · rw [far, if_pos rfl, if_neg nofun]

theorem failsAt_natCast {s : State} {i : Arm} (role : s.role i = .lock ∨ s.role i = .far) (cap v : Nat) :
    s.failsAt i cap v ↔ (cap : Int) < if s.role i = .lock then (v : Int) + (s.seg i).r else v := by
  rw [failsAt_iff role, or_iff_right (by omega)]

/-- The view and the tests of the base part of an entry, whatever its kind (R95, R96, R110). -/
theorem viewed_entry {w : State} {i : Arm} {e : RawEntry} (role : w.role i = .lock ∨ w.role i = .far) (kind : EntryKind)
    (epoch : Byte) (occ : (w.seg i).occ ≤ 15) (entryOcc : e.occ.toNat ≤ 15) :
    let counted : Prop := kind = .ordinary ∧ (e.e - (w.seg i).eN).toNat ≤ 30 ∧ (e.x - (w.seg i).xN).toNat ≤ 30
    let sum : Int := ((w.seg i).occ : Int) + (e.e - (w.seg i).eN).toNat - (e.x - (w.seg i).xN).toNat
    let adopted : Prop := kind = .first ∧ w.role i = .lock ∧ (w.seg i).unsure = true
    let counts : Nat := if counted then min sum.toNat 15 else (w.seg i).occ
    let byDeltas : Prop := kind = .ordinary ∧ (¬counted ∨ w.failsAt i (w.effCapacity i) sum)
    Viewed i (w.entryCapacity i e) (if adopted then e.occ.toNat else counts)
      (byDeltas ∨ w.retestFails i e counts
        ∨ (adopted ∧ e.occ.toNat ≠ (w.seg i).occ ∧ w.failsAt i (w.entryCapacity i e) e.occ.toNat))
      (kind = .newEpoch) w (w.takeEntryBase i kind epoch e) := by
  intro counted sum adopted counts byDeltas
  cases kind with
  | ordinary =>
    have notAdopted : ¬adopted := fun h => nomatch h.1
    rw [if_neg notAdopted]
    by_cases small : (e.e - (w.seg i).eN).toNat ≤ 30 ∧ (e.x - (w.seg i).xN).toNat ≤ 30
    · have counting : counted := ⟨rfl, small⟩
      have kept : counts = min sum.toNat 15 := if_pos counting
      rw [kept]
      refine (viewed_counted epoch small).of_iff ?_ (by simp)
      simp [byDeltas, counting, notAdopted, sum]
    · have uncounting : ¬counted := fun h => small h.2
      have kept : counts = (w.seg i).occ := if_neg uncounting
      rw [kept]
      exact (viewed_uncounted epoch small occ).of_iff (iff_of_true trivial (.inl ⟨rfl, .inl uncounting⟩)) (by simp)
  | first =>
    have kept : counts = (w.seg i).occ := if_neg fun h => nomatch h.1
    have notOrdinary : ¬byDeltas := fun h => nomatch h.1
    rw [kept]
    by_cases adopting : adopted
    · rw [if_pos adopting]
      exact (viewed_adopted epoch adopting.2.1 adopting.2.2 occ entryOcc).of_iff (by simp [notOrdinary, adopting]) (by simp)
    · rw [if_neg adopting]
      have sure : w.role i = .far ∨ (w.role i = .lock ∧ (w.seg i).unsure = false) := by
        rcases role with lock | far
        · refine .inr ⟨lock, ?_⟩
          by_contra unsure
          exact adopting ⟨rfl, lock, by simpa using unsure⟩
        · exact .inl far
      exact (viewed_first epoch sure occ).of_iff (by simp [notOrdinary, adopting]) (by simp)
  | newEpoch =>
    have kept : counts = (w.seg i).occ := if_neg fun h => nomatch h.1
    have notOrdinary : ¬byDeltas := fun h => nomatch h.1
    have notAdopted : ¬adopted := fun h => nomatch h.1
    rw [kept, if_neg notAdopted]
    exact (viewed_newEpoch epoch role.symm occ).of_iff (by simp [notOrdinary, notAdopted]) (by simp)

/-! ### A far end -/

/-- At a far end the limit does not follow the record (R98). -/
theorem relimit_far {s : State} {i : Arm} (far : s.role i = .far) (old new : SegEnd) : s.relimit i old new = new := by
  have closed (g : SegEnd) : s.limitOpen i g = false := by
    rw [← Bool.not_eq_true, limitOpen_iff, far]
    rintro ⟨lock, -⟩
    cases lock
  exact relimit_closed s i (closed old) (closed new)

theorem evaluate_far {s : State} {i : Arm} (far : s.role i = .far) : s.evaluate i = s := by
  refine evaluate_of_not_steers ?_
  rw [← Bool.not_eq_true, steers_iff, far]
  rintro ⟨-, near, -⟩
  exact near rfl

/-- The limit, its epoch and the direction. -/
def LimitIs (limit epoch : Byte) (dir : Direction) (g : SegEnd) : Prop := g.limit = limit ∧ g.limitEpoch = epoch ∧ g.dir = dir

theorem limitIs_viewInvariant {s : State} {i : Arm} (far : s.role i = .far) (limit epoch : Byte) (dir : Direction) :
    ViewInvariant s i (LimitIs limit epoch dir) := fun _ _ _ _ h => by
  rw [relimit_far far]
  exact h

/-- No entry changes the limit, its epoch or the direction of a far end. -/
theorem takeEntryBase_far {w : State} {i : Arm} (far : w.role i = .far) (kind : EntryKind) (epoch : Byte) (e : RawEntry) :
    LimitIs (w.seg i).limit (w.seg i).limitEpoch (w.seg i).dir ((w.takeEntryBase i kind epoch e).seg i) := by
  have kept := limitIs_viewInvariant far (w.seg i).limit (w.seg i).limitEpoch (w.seg i).dir
  have hear : ∀ g, LimitIs (w.seg i).limit (w.seg i).limitEpoch (w.seg i).dir g →
      LimitIs (w.seg i).limit (w.seg i).limitEpoch (w.seg i).dir (w.relimit i g (g.hear e)) := fun g h => by
    rw [relimit_far far]
    exact h
  cases kind with
  | ordinary => exact ordinary_invariant epoch kept kept hear ⟨rfl, rfl, rfl⟩
  | first =>
    rw [takeEntryBase_first_far far]
    exact kept.storeHeard rfl (hear _ ⟨rfl, rfl, rfl⟩)
  | newEpoch =>
    rw [takeEntryBase_newEpoch_far far]
    have marked : LimitIs (w.seg i).limit (w.seg i).limitEpoch (w.seg i).dir
        ((w.modSeg i fun g => { g with unsure := true }).seg i) := kept.modSeg rfl ⟨rfl, rfl, rfl⟩
    exact kept.storeHeard (t := w.modSeg i fun g => { g with unsure := true }) rfl (hear _ marked)

/-- How a far end stands after the role-specific work and the end of isolation: it holds the entry's limit, and follows the
condition of its lock end where `follows` holds (R99, R107). -/
structure FarTaken (i : Arm) (e : RawEntry) (t u : State) : Prop where
  heldLimit : (u.seg i).heldLimit = e.lim
  heldEpoch : (u.seg i).heldEpoch = e.limEpoch
  limits : LimitIs (t.seg i).limit (t.seg i).limitEpoch (t.seg i).dir (u.seg i)
  capacity : u.effCapacity i = t.effCapacity i
  following : (t.seg i).unsure = true → entryCondition e = some .active → e.limEpoch = t.scu.epoch →
    (u.seg i).occ = min e.occ.toNat 15 ∧ ((u.seg i).unsure = true ↔ (t.effCapacity i : Int) < e.occ.toNat)
    ∧ (u.flagged .countInconsistent = true ↔ t.flagged .countInconsistent = true ∨ (t.effCapacity i : Int) < e.occ.toNat)
  apart : ¬((t.seg i).unsure = true ∧ entryCondition e = some .active ∧ e.limEpoch = t.scu.epoch) →
    (u.seg i).occ = (t.seg i).occ ∧ ((u.seg i).unsure = true ↔ (t.seg i).unsure = true ∨ entryCondition e = some .unsure)
    ∧ u.flagged .countInconsistent = t.flagged .countInconsistent

theorem clearIsolation_far {t : State} {i : Arm} (far : t.role i = .far) :
    t.clearIsolation i = t ∨ t.clearIsolation i = t.modSeg i fun g => { g with isolated := false } := by
  unfold State.clearIsolation
  split
  · exact .inl rfl
  · exact .inr (evaluate_far (by exact far))

/-- The end of isolation changes nothing else of a far end. -/
theorem FarTaken.clearIsolation {i : Arm} {e : RawEntry} {t u : State} (h : FarTaken i e t u) (far : u.role i = .far) :
    FarTaken i e t (u.clearIsolation i) := by
  rcases clearIsolation_far far with same | cleared
  · rw [same]
    exact h
  · have seg : (u.modSeg i fun g => { g with isolated := false }).seg i = { u.seg i with isolated := false } := by
      rw [seg_modSeg, if_pos rfl, relimit_far far]
    have capacity : (u.modSeg i fun g => { g with isolated := false }).effCapacity i = u.effCapacity i :=
      effCapacity_congr rfl (by rw [seg])
    rw [cleared]
    refine ⟨?_, ?_, ?_, capacity.trans h.capacity, fun unsure active epoch => ?_, fun apart => ?_⟩
    · rw [seg]
      exact h.heldLimit
    · rw [seg]
      exact h.heldEpoch
    · rw [seg]
      exact h.limits
    · rw [seg]
      exact h.following unsure active epoch
    · rw [seg]
      exact h.apart apart

theorem farTaken_takeEntryRole {t : State} {i : Arm} (far : t.role i = .far) (e : RawEntry) :
    FarTaken i e t (t.takeEntryRole i e) := by
  have heldSeg : (t.modSeg i fun g => { g with heldLimit := e.lim, heldEpoch := e.limEpoch }).seg i
      = { t.seg i with heldLimit := e.lim, heldEpoch := e.limEpoch } := by
    rw [seg_modSeg, if_pos rfl, relimit_far far]
  rw [takeEntryRole_far far]
  generalize hh : (t.modSeg i fun g => { g with heldLimit := e.lim, heldEpoch := e.limEpoch }) = h at heldSeg
  have scu : h.scu = t.scu := by rw [← hh]; rfl
  have flagged : h.flagged .countInconsistent = t.flagged .countInconsistent := by rw [← hh]; rfl
  have hfar : h.role i = .far := (role_congr (congrArg Scu.cfg scu)).trans far
  have capacity : h.effCapacity i = t.effCapacity i := effCapacity_congr (congrArg Scu.cfg scu) (by rw [heldSeg])
  have kept (notUnsure : entryCondition e ≠ some .unsure)
      (apart : ¬((t.seg i).unsure = true ∧ entryCondition e = some .active ∧ e.limEpoch = t.scu.epoch)) : FarTaken i e t h := by
    refine ⟨by rw [heldSeg], by rw [heldSeg], by rw [heldSeg]; exact ⟨rfl, rfl, rfl⟩, capacity,
      fun unsure active epoch => absurd ⟨unsure, active, epoch⟩ apart, fun _ => ⟨by rw [heldSeg], ?_, flagged⟩⟩
    rw [heldSeg, or_iff_left notUnsure]
  unfold State.follow
  split
  · next active =>
    split
    · next follows =>
      obtain ⟨epoch, unsure⟩ := follows
      have cleared : (h.modSeg i fun g => { g with unsure := false }).seg i
          = { t.seg i with heldLimit := e.lim, heldEpoch := e.limEpoch, unsure := false } := by
        rw [seg_modSeg, if_pos rfl, relimit_far hfar, heldSeg]
      have capacity' : (h.modSeg i fun g => { g with unsure := false }).effCapacity i = t.effCapacity i :=
        effCapacity_congr (congrArg Scu.cfg scu) (by rw [cleared])
      have kfar : (h.modSeg i fun g => { g with unsure := false }).role i = .far := hfar
      have kflagged : (h.modSeg i fun g => { g with unsure := false }).flagged .countInconsistent = t.flagged .countInconsistent :=
        flagged
      generalize (h.modSeg i fun g => { g with unsure := false }) = k at cleared capacity' kfar kflagged
      have seg := takeView_seg i i e.occ.toNat k
      rw [if_pos rfl, relimit_far kfar, cleared] at seg
      obtain ⟨view, marks, flags⟩ := takeView_tested i e.occ.toNat k
      have fails : k.viewFails i e.occ.toNat (k.seg i).r ↔ (t.effCapacity i : Int) < e.occ.toNat := by
        unfold State.viewFails
        rw [capacity', kfar, if_pos rfl, or_iff_right (by omega)]
      rw [fails, cleared] at marks
      rw [fails, kflagged] at flags
      refine ⟨by rw [seg], by rw [seg], by rw [seg]; exact ⟨rfl, rfl, rfl⟩,
        (effCapacity_congr (endStep_takeView i _ k).cfg (endStep_takeView i _ k).heard.capN).trans capacity',
        fun _ _ _ => ⟨view, marks.trans (by simp), flags⟩, fun apart => absurd ⟨?_, active, ?_⟩ apart⟩
      · rw [heldSeg] at unsure
        exact unsure
      · rw [epoch, scu]
    · next apart =>
      refine kept (by simp [active]) fun ⟨unsure, _, epoch⟩ => apart ⟨?_, ?_⟩
      · rw [scu, epoch]
      · rw [heldSeg]
        exact unsure
  · next cond =>
    have marked : (h.modSeg i fun g => { g with unsure := true }).seg i
        = { t.seg i with heldLimit := e.lim, heldEpoch := e.limEpoch, unsure := true } := by
      rw [seg_modSeg, if_pos rfl, relimit_far hfar, heldSeg]
    refine ⟨by rw [marked], by rw [marked], by rw [marked]; exact ⟨rfl, rfl, rfl⟩,
      effCapacity_congr (congrArg Scu.cfg scu) (by rw [marked]), fun _ active => ?_, fun _ => ⟨by rw [marked], ?_, flagged⟩⟩
    · rw [cond] at active
      cases active
    · rw [marked]
      exact iff_of_true rfl (.inr cond)
  · next cond => exact kept (by simp [cond]) (by simp [cond])
  · next cond => exact kept (by simp [cond]) (by simp [cond])

end Sys2Proof.Machine

/-! ## A neighbour's entry, from the report to the segment end -/

namespace Sys2Proof.Machine

/-- The state `w`, in which SGU takes an entry, beside the state `s` before the report: a mismatch has isolated the end. -/
structure HandedOver (i : Arm) (e : RawEntry) (s w : State) : Prop where
  scu : w.scu = s.scu
  flagged : w.flagged .countInconsistent = s.flagged .countInconsistent
  matching : s.mismatchOf i (some e) = .none → w.seg i = s.seg i
  mismatching : s.mismatchOf i (some e) ≠ .none → w.seg i = s.relimit i (s.seg i) { s.seg i with isolated := true }
  isolating : (w.nbr i).isolating = true ↔ s.mismatchOf i (some e) ≠ .none

/-- The base state under which a report's entry is handed over (R133, R135). -/
def Neighbour.entryKindAt (epoch : Byte) (n : Neighbour) : EntryKind := (n.speaks.compared epoch).base.entryKind

theorem takeReport_handsOver (i : Arm) (f : FloorReport) (e : RawEntry) (s : State) :
    ∃ w, HandedOver i e s w ∧ s.takeReport i f (some e) = w.takeEntry i ((s.nbr i).entryKindAt f.epoch) f.epoch e := by
  have noted := reportNoted i f (s.mismatchOf i (some e)) s
  have base : ((s.reported i f (s.mismatchOf i (some e))).nbr i).base.entryKind = (s.nbr i).entryKindAt f.epoch := by
    rw [noted.record]
    rfl
  have mismatched : (((s.nbr i).reported f (s.mismatchOf i (some e))).isolating = true) ↔ s.mismatchOf i (some e) ≠ .none := by
    simp [Neighbour.isolating, Neighbour.reported, Neighbour.lives]
  rw [takeReport_some, handEntry_eq, base]
  generalize s.reported i f (s.mismatchOf i (some e)) = u at noted
  have recorded := entryRecorded i e u
  refine ⟨_, ⟨recorded.scu.trans noted.scu, ?_, fun none => ?_, fun mismatch => ?_, ?_⟩, rfl⟩
  · exact (recorded.flags .countInconsistent nofun).trans (noted.flags .countInconsistent nofun nofun)
  · rw [State.seg, recorded.segs, noted.segs, if_pos none, State.seg]
  · rw [State.seg, recorded.segs, noted.segs, if_neg mismatch, ← State.seg, State.isolate, seg_modSeg, if_pos rfl]
  · rw [recorded.record, ← mismatched, ← noted.record]
    rfl

theorem entryKindAt_first {n : Neighbour} {epoch : Byte} : n.entryKindAt epoch = .first ↔ n.base = .none := by
  unfold Neighbour.entryKindAt Neighbour.compared Neighbour.noteRestart Neighbour.speaks
  split
  · cases n.base <;> simp [BaseState.entryKind]
  · cases n.base <;> simp [BaseState.entryKind]

theorem entryKindAt_ordinary {n : Neighbour} {epoch : Byte} : n.entryKindAt epoch = .ordinary ↔
    n.base = .current ∧ (n.epoch = none ∨ n.epoch = some epoch) := by
  unfold Neighbour.entryKindAt Neighbour.compared Neighbour.noteRestart Neighbour.speaks
  split
  · next same =>
    cases n.base <;> simp [BaseState.entryKind]
    exact same
  · next other =>
    cases n.base <;> simp [BaseState.entryKind]
    simpa using other

theorem entryKindAt_newEpoch {n : Neighbour} {epoch : Byte} : n.entryKindAt epoch = .newEpoch ↔
    n.base ≠ .none ∧ ¬(n.base = .current ∧ (n.epoch = none ∨ n.epoch = some epoch)) := by
  rw [← entryKindAt_ordinary, ne_eq, ← entryKindAt_first (epoch := epoch)]
  cases n.entryKindAt epoch <;> simp

section
variable {i : Arm} {e : RawEntry} {s w : State}

theorem HandedOver.fields (h : HandedOver i e s w) :
    ∃ isolated limit, w.seg i = { s.seg i with isolated := isolated, limit := limit } := by
  by_cases none : s.mismatchOf i (some e) = .none
  · exact ⟨(s.seg i).isolated, (s.seg i).limit, h.matching none⟩
  · obtain ⟨limit, same⟩ := relimit_fields s i (s.seg i) { s.seg i with isolated := true }
    exact ⟨true, limit, (h.mismatching none).trans same⟩

theorem HandedOver.cfg (h : HandedOver i e s w) : w.cfg = s.cfg := congrArg Scu.cfg h.scu

theorem HandedOver.role (h : HandedOver i e s w) : w.role i = s.role i := role_congr h.cfg

theorem HandedOver.effCapacity (h : HandedOver i e s w) : w.effCapacity i = s.effCapacity i := by
  obtain ⟨isolated, limit, seg⟩ := h.fields
  exact effCapacity_congr h.cfg (by rw [seg])

theorem HandedOver.failsAt (h : HandedOver i e s w) (cap : Nat) (v : Int) : w.failsAt i cap v ↔ s.failsAt i cap v := by
  obtain ⟨isolated, limit, seg⟩ := h.fields
  unfold State.failsAt
  rw [h.role, seg]

/-- A limit that was open: it is still, or the mismatch has closed it. -/
theorem HandedOver.closesAt (h : HandedOver i e s w) (wasOpen : s.limitOpen i (s.seg i) = true) :
    ClosesAt w i (s.seg i).farCommitted (w.seg i) := by
  have start : ClosesAt s i (s.seg i).farCommitted (s.seg i) := ⟨rfl, fun closed => by rw [wasOpen] at closed; cases closed⟩
  have handed : ClosesAt s i (s.seg i).farCommitted (w.seg i) := by
    by_cases none : s.mismatchOf i (some e) = .none
    · rw [h.matching none]
      exact start
    · rw [h.mismatching none]
      exact start.relimit s i rfl rfl rfl
  exact ⟨handed.1, fun closed => handed.2 (by rw [← limitOpen_of_scu h.scu]; exact closed)⟩

theorem HandedOver.hidden (h : HandedOver i e s w) (start : (s.seg i).isolated = false ∨ (s.seg i).dir ≠ .inbound) :
    (w.seg i).isolated = true → (w.nbr i).isolating = true ∨ (w.seg i).dir ≠ .inbound := by
  by_cases none : s.mismatchOf i (some e) = .none
  · rw [h.matching none]
    rcases start with joined | away
    · rw [joined]
      exact nofun
    · exact fun _ => .inr away
  · exact fun _ => .inl (h.isolating.2 none)

/-- A limit that was closed is where it was. -/
theorem HandedOver.staysShut (h : HandedOver i e s w) (start : (s.seg i).isolated = false ∨ (s.seg i).dir ≠ .inbound)
    (wasClosed : s.limitOpen i (s.seg i) = false) : StaysShut w i (w.nbr i).isolating (s.seg i).limit (w.seg i) := by
  refine ⟨?_, ?_, h.hidden start⟩
  · rw [limitOpen_of_scu h.scu]
    by_cases none : s.mismatchOf i (some e) = .none
    · rw [h.matching none, wasClosed]
    · rw [h.mismatching none, limitOpen_relimit, ← Bool.not_eq_true, limitOpen_iff]
      rintro ⟨-, -, joined, -⟩
      cases joined
  · by_cases none : s.mismatchOf i (some e) = .none
    · rw [h.matching none]
    · have closed : s.limitOpen i { s.seg i with isolated := true } = false := by
        rw [← Bool.not_eq_true, limitOpen_iff]
        rintro ⟨-, -, joined, -⟩
        cases joined
      rw [h.mismatching none, relimit_closed s i wasClosed closed]

end

/-! ### The end of the event -/

/-- Neither the end of LISTENING nor the end of the event changes what an entry did at the segment end. -/
structure EndKept (i : Arm) (u t : State) : Prop where
  seg : ∃ quiet, t.seg i = { u.seg i with quiet := quiet }
  capacity : t.effCapacity i = u.effCapacity i
  flagged : t.flagged .countInconsistent = u.flagged .countInconsistent
  limitOpen : ∀ g, t.limitOpen i g = u.limitOpen i g

theorem limitOpen_working {s t : State} (cfg : t.cfg = s.cfg) (part : t.part = .faulted ↔ s.part = .faulted) (i : Arm) (g : SegEnd) :
    t.limitOpen i g = s.limitOpen i g := by
  rw [Bool.eq_iff_iff, limitOpen_iff, limitOpen_iff, role_congr cfg, ne_eq, part]

theorem endKept_finish (old u : State) (i : Arm) : EndKept i u (State.finish old u.listenTest) := by
  obtain ⟨-, segs, mtp, -⟩ := listenTest_keeps u
  obtain ⟨scu, -, -, -, -, -, fmtp, -⟩ := finish_keeps old u.listenTest
  have seg : u.listenTest.seg i = u.seg i := by rw [State.seg, segs, State.seg]
  have ended := finish_seg old u.listenTest i
  rw [seg] at ended
  have cfg : (State.finish old u.listenTest).cfg = u.cfg := by
    rw [State.cfg, scu]
    unfold State.listenTest
    split <;> rfl
  have part : (State.finish old u.listenTest).part = .faulted ↔ u.part = .faulted := by
    rw [State.part, scu]
    unfold State.listenTest
    split
    · next listening =>
      rw [Bool.and_eq_true, beq_iff_eq] at listening
      rw [listening.1]
      exact iff_of_false nofun nofun
    · exact Iff.rfl
  refine ⟨⟨_, ended⟩, effCapacity_congr cfg (by rw [ended]), ?_, limitOpen_working cfg part i⟩
  rw [State.flagged, fmtp, mtp, State.flagged]

end Sys2Proof.Machine

/-! ## The view that an entry leaves, in terms of the state before its report (R94 to R96, R110) -/

namespace Sys2Proof.Machine

/-- The view and the tests of the base part of an entry, in the state before its report (R95, R96, R110). -/
theorem viewed_handed {i : Arm} {e : RawEntry} {s w : State} (handed : HandedOver i e s w)
    (role : s.role i = .lock ∨ s.role i = .far) (epoch : Byte) (occ : (s.seg i).occ ≤ 15) (entryOcc : e.occ.toNat ≤ 15) :
    let g := s.seg i
    let lock : Prop := s.role i = .lock
    let sameEpoch : Prop := (s.nbr i).epoch = none ∨ (s.nbr i).epoch = some epoch
    let first : Prop := (s.nbr i).base = .none
    let ordinary : Prop := (s.nbr i).base = .current ∧ sameEpoch
    let capacity : Nat := min (s.arm i).capacity e.capacity.toNat
    let deltaE := (e.e - g.eN).toNat
    let deltaX := (e.x - g.xN).toNat
    let counted : Prop := ordinary ∧ deltaE ≤ 30 ∧ deltaX ≤ 30
    let sum : Int := (g.occ : Int) + deltaE - deltaX
    let load (view : Int) : Int := if lock then view + g.r else view
    let adopted : Prop := first ∧ lock ∧ g.unsure = true
    let counts : Nat := if counted then min sum.toNat 15 else g.occ
    let view : Nat := if adopted then e.occ.toNat else counts
    let byDeltas : Prop := ordinary ∧ (¬ counted ∨ sum < 0 ∨ (s.effCapacity i : Int) < load sum)
    let failed : Prop := byDeltas ∨ (capacity ≠ s.effCapacity i ∧ (capacity : Int) < load counts)
      ∨ (adopted ∧ e.occ.toNat ≠ g.occ ∧ (capacity : Int) < load e.occ.toNat)
    Viewed i capacity view failed (¬ first ∧ ¬ ordinary) w (w.takeEntryBase i ((s.nbr i).entryKindAt epoch) epoch e) := by
  intro g lock sameEpoch first ordinary capacity deltaE deltaX counted sum load adopted counts view byDeltas failed
  obtain ⟨isolated, limit, seg⟩ := handed.fields
  have wocc : (w.seg i).occ = g.occ := by rw [seg]
  have weN : (w.seg i).eN = g.eN := by rw [seg]
  have wxN : (w.seg i).xN = g.xN := by rw [seg]
  have wunsure : (w.seg i).unsure = g.unsure := by rw [seg]
  have wcapacity : w.entryCapacity i e = capacity := by
    unfold State.entryCapacity State.arm
    rw [handed.cfg]
    rfl
  have viewed := viewed_entry (e := e) (handed.role ▸ role) ((s.nbr i).entryKindAt epoch) epoch (wocc ▸ occ) entryOcc
  simp only [State.retestFails, handed.failsAt, handed.effCapacity, wcapacity, wocc, weN, wxN, wunsure, handed.role, entryKindAt_first,
    entryKindAt_ordinary, entryKindAt_newEpoch, failsAt_natCast role] at viewed
  simp only [failsAt_iff role] at viewed
  exact viewed

end Sys2Proof.Machine

/-! ## The limits that an entry leaves at a lock end, in terms of the state before its report (R98) -/

namespace Sys2Proof.Machine

section
variable {i : Arm} {e : RawEntry} {s w : State}

/-- An open limit stays open through the deltas of an ordinary entry where neither a mismatch nor the deltas close it (R98). -/
theorem applyDeltas_open (handed : HandedOver i e s w) (wasOpen : s.limitOpen i (s.seg i) = true) :
    let sum : Int := ((s.seg i).occ : Int) + (e.e - (s.seg i).eN).toNat - (e.x - (s.seg i).xN).toNat
    w.limitOpen i ((w.applyDeltas i e).seg i) = true ↔ s.mismatchOf i (some e) = .none
      ∧ ((e.e - (s.seg i).eN).toNat ≤ 30 ∧ (e.x - (s.seg i).xN).toNat ≤ 30) ∧ ¬s.failsAt i (s.effCapacity i) sum := by
  intro sum
  obtain ⟨isolated, limit, seg⟩ := handed.fields
  obtain ⟨lock, sure, joined, part, inbound⟩ := limitOpen_iff.1 wasOpen
  have weN : (w.seg i).eN = (s.seg i).eN := by rw [seg]
  have wxN : (w.seg i).xN = (s.seg i).xN := by rw [seg]
  have wocc : (w.seg i).occ = (s.seg i).occ := by rw [seg]
  have wsure : (w.seg i).unsure = false := by rw [seg, ← sure]
  have winbound : (w.seg i).dir = .inbound := by rw [seg, ← inbound]
  have wjoined : (w.seg i).isolated = false ↔ s.mismatchOf i (some e) = .none := by
    by_cases none : s.mismatchOf i (some e) = .none
    · rw [handed.matching none]
      exact iff_of_true joined none
    · obtain ⟨limit, same⟩ := relimit_fields s i (s.seg i) { s.seg i with isolated := true }
      rw [handed.mismatching none, same]
      exact iff_of_false nofun none
  have stands := (standsAs_viewInvariant w i (w.seg i).dir (w.seg i).isolated).applyDeltas (e := e) (t := w) rfl ⟨rfl, rfl⟩
  obtain ⟨counted, uncounted⟩ := viewed_applyDeltas i e w
  rw [weN, wxN, wocc, handed.effCapacity, handed.failsAt] at counted
  rw [weN, wxN] at uncounted
  have wpart : w.part ≠ .faulted := by
    rw [show w.part = s.part from congrArg Scu.part handed.scu]
    exact part
  rw [limitOpen_iff, stands.1, stands.2, wjoined, handed.role]
  by_cases small : (e.e - (s.seg i).eN).toNat ≤ 30 ∧ (e.x - (s.seg i).xN).toNat ≤ 30
  · have unsure := (counted small).unsure
    rw [wsure, or_false, or_iff_right (by simp)] at unsure
    rw [← Bool.not_eq_true, unsure]
    simp only [lock, winbound, small]
    tauto
  · have unsure := (uncounted small).unsure.2 (.inr (.inl trivial))
    rw [unsure]
    exact iff_of_false (fun h => nomatch h.2.1) fun h => small h.2.1

/-- The limits of a lock end after an entry (R98, R99, R110). -/
theorem lock_limits {u : State} {epoch : Byte} (handed : HandedOver i e s w) (lock : s.role i = .lock)
    (entered : w.takeEntry i ((s.nbr i).entryKindAt epoch) epoch e = u) :
    let g := s.seg i
    let ordinary : Prop := (s.nbr i).base = .current ∧ ((s.nbr i).epoch = none ∨ (s.nbr i).epoch = some epoch)
    let counted : Prop := (e.e - (s.seg i).eN).toNat ≤ 30 ∧ (e.x - (s.seg i).xN).toNat ≤ 30
    let sum : Int := ((s.seg i).occ : Int) + (e.e - (s.seg i).eN).toNat - (e.x - (s.seg i).xN).toNat
    HeldIs g.heldLimit g.heldEpoch (u.seg i)
    ∧ (s.limitOpen i (u.seg i) = true →
        (u.seg i).limit = e.e + (BitVec.ofNat 8 (u.effCapacity i) - BitVec.ofNat 8 (u.seg i).occ))
    ∧ (¬ordinary → (u.seg i).limitEpoch = epoch ∧ (s.limitOpen i (u.seg i) = false → (u.seg i).limit = e.e + e.r))
    ∧ (ordinary → (u.seg i).limitEpoch = g.limitEpoch
        ∧ (s.limitOpen i (u.seg i) = false →
          (s.limitOpen i g = true →
            let still : Prop := s.mismatchOf i (some e) = .none ∧ counted ∧ ¬s.failsAt i (s.effCapacity i) sum
            (still → (u.seg i).limit = e.e + e.r) ∧ (¬still → (u.seg i).limit = loweredTo (e.e + e.r) g.farCommitted))
          ∧ (s.limitOpen i g = false → g.isolated = false ∨ g.dir ≠ .inbound →
            (u.seg i).limit = loweredTo (e.e + e.r) g.limit))) := by
  intro g ordinary counted sum
  subst entered
  obtain ⟨isolated, limit, seg⟩ := handed.fields
  have wlock : w.role i = .lock := handed.role.trans lock
  have wopen (g : SegEnd) : w.limitOpen i g = s.limitOpen i g := limitOpen_of_scu handed.scu g
  have taken := entryTaken_takeEntry i ((s.nbr i).entryKindAt epoch) epoch e w
  have kindOf : ordinary ↔ (s.nbr i).entryKindAt epoch = .ordinary := entryKindAt_ordinary.symm
  refine ⟨?_, fun isOpen => ?_, fun rebase => ?_, fun ord => ?_⟩
  · have held := takeEntry_held wlock ((s.nbr i).entryKindAt epoch) epoch e
    rw [seg] at held
    exact held
  · have follows := takeEntry_follows wlock ((s.nbr i).entryKindAt epoch) epoch e ((wopen _).trans isOpen)
    have capacity : ((w.takeEntry i ((s.nbr i).entryKindAt epoch) epoch e).seg i).capacity (w.arm i).capacity
        = (w.takeEntry i ((s.nbr i).entryKindAt epoch) epoch e).effCapacity i := by
      unfold State.effCapacity State.arm
      rw [taken.cfg]
    rw [← capacity, ← taken.hears.eN]
    exact follows
  · rw [kindOf] at rebase
    obtain ⟨limitEpoch, closed⟩ := rebase_limit wlock rebase epoch e
    exact ⟨limitEpoch, fun h => closed ((wopen _).trans h)⟩
  · have kind := kindOf.1 ord
    rw [kind]
    refine ⟨?_, fun closed => ⟨fun wasOpen => ?_, fun wasClosed start => ?_⟩⟩
    · rw [ordinary_limitEpoch wlock epoch e, seg]
    · have joined : (s.seg i).isolated = false := (limitOpen_iff.1 wasOpen).2.2.1
      have limits := ordinary_limit_closing wlock epoch (handed.closesAt wasOpen) (handed.hidden (.inl joined))
        ((wopen _).trans closed)
      rw [limits]
      exact ⟨fun still => if_pos ((applyDeltas_open handed wasOpen).2 still),
        fun shut => if_neg fun h => shut ((applyDeltas_open handed wasOpen).1 h)⟩
    · exact ordinary_limit_closed wlock epoch (handed.staysShut start wasClosed) ((wopen _).trans closed)

end

end Sys2Proof.Machine

/-! ## A neighbour's entry at the segment end -/

namespace Sys2Proof.Machine

theorem entryOcc_of_acceptable {epoch status : Byte} {e : RawEntry} (acceptable : reportAcceptable epoch status (some e) = true) :
    e.occ.toNat ≤ 15 := by
  by_contra large
  have refused := not_reportAcceptable (epoch := epoch) (status := status) (entry := some e)
    (.inr (.inr ⟨e, rfl, .inr (.inr (.inr (.inr (.inr (.inr (.inr (.inl (not_le.1 large))))))))⟩))
  rw [refused] at acceptable
  cases acceptable

theorem Viewed.throughLock {i : Arm} {cap occ : Nat} {failed marked : Prop} {w u : State} {kind : EntryKind} {epoch : Byte}
    {e : RawEntry} (h : Viewed i cap occ failed marked w (w.takeEntryBase i kind epoch e)) (lock : w.role i = .lock)
    (entered : w.takeEntry i kind epoch e = u) : Viewed i cap occ failed marked w u := by
  subst entered
  exact (h.roleOfLock lock e).clearIsolation

/-- The report of a neighbour with an entry for this node, as far as the segment end goes. -/
theorem report_handsOver {s : State} {f : FloorReport} {own : Bool} {i : Arm} {e : RawEntry} (released : s.scu.rstHeld = false)
    (working : s.part.working = true) (foreign : f.sender.toNat ≠ s.cfg.nodeAddress)
    (neighbour : s.armOfNeighbour f.sender.toNat = some i) (acceptable : reportAcceptable f.epoch f.status (some e) = true)
    (found : FloorReport.entryFor s.cfg.nodeAddress f = some e) :
    ∃ w t, HandedOver i e s w ∧ exec (.floorReportReceived f own) s = .next t
      ∧ EndKept i (w.takeEntry i ((s.nbr i).entryKindAt f.epoch) f.epoch e) t := by
  have does := does_floorReport (own := own) released working foreign neighbour (by rw [found]; exact acceptable)
  obtain ⟨w, ⟨scu, flagged, matching, mismatching, isolating⟩, taken⟩ :=
    takeReport_handsOver i f e (s.modRx (Receiver.handOver (.report f own)))
  have kindOf : ((s.modRx (Receiver.handOver (.report f own))).nbr i).entryKindAt f.epoch = (s.nbr i).entryKindAt f.epoch := rfl
  rw [found, taken, kindOf] at does
  exact ⟨w, _, ⟨scu, flagged, matching, mismatching, isolating⟩, does, endKept_finish s _ i⟩

theorem entryCapacity_of_heard {i : Arm} {e : RawEntry} {s w u : State} (handed : HandedOver i e s w) (taken : EntryTaken i e w u) :
    u.effCapacity i = min (s.arm i).capacity e.capacity.toNat := by
  unfold State.effCapacity SegEnd.capacity State.arm
  rw [taken.hears.capN, taken.cfg, handed.cfg]

theorem mismatchOf_eq_none {s : State} {i : Arm} {e : RawEntry} :
    s.mismatchOf i (some e) = .none ↔ entryKind e = some (s.arm i).kind := by
  rw [mismatchOf_some]
  split
  · next same => exact iff_of_true rfl same
  · next other => exact iff_of_false nofun other

/-- A mismatch changes neither the limit, nor its epoch, nor the direction of a far end. -/
theorem HandedOver.limits_far {i : Arm} {e : RawEntry} {s w : State} (h : HandedOver i e s w) (far : s.role i = .far) :
    LimitIs (s.seg i).limit (s.seg i).limitEpoch (s.seg i).dir (w.seg i) := by
  by_cases none : s.mismatchOf i (some e) = .none
  · rw [h.matching none]
    exact ⟨rfl, rfl, rfl⟩
  · rw [h.mismatching none, relimit_far far]
    exact ⟨rfl, rfl, rfl⟩

/-- Settles O45. -/
theorem neighbourEntryAtSegmentEnd : Obligations.NeighbourEntryAtSegmentEnd := by
  intro s f own i e released working bounded foreign neighbour acceptable found
  obtain ⟨w, t, handed, does, kept⟩ := report_handsOver (own := own) released working foreign neighbour acceptable found
  have entryOcc := entryOcc_of_acceptable acceptable
  have occ : (s.seg i).occ ≤ 15 := (bounded.2.2.2.1 i).2
  have taken := entryTaken_takeEntry i ((s.nbr i).entryKindAt f.epoch) f.epoch e w
  generalize entered : w.takeEntry i ((s.nbr i).entryKindAt f.epoch) f.epoch e = u at kept taken
  have capacity := entryCapacity_of_heard handed taken
  have topen : ∀ g, t.limitOpen i g = s.limitOpen i g := fun g =>
    (kept.limitOpen g).trans ((taken.limitOpen g).trans (limitOpen_of_scu handed.scu g))
  obtain ⟨quiet, seg⟩ := kept.seg
  have tflagged := kept.flagged
  obtain ⟨isolated, limit, fields⟩ := handed.fields
  have wunsure : (w.seg i).unsure = (s.seg i).unsure := by rw [fields]
  intro g lock sameEpoch first ordinary capacity' deltaE deltaX counted sum load adopted counts view byDeltas failed unsure heard lowered
  refine ⟨t, does, kept.capacity.trans capacity, fun isLock => ?_, fun far => ?_⟩
  · have viewed := (viewed_handed handed (.inl isLock) f.epoch occ entryOcc).throughLock (handed.role.trans isLock) entered
    obtain ⟨held, opened, rebased, continued⟩ := lock_limits handed isLock entered
    rw [seg, tflagged]
    refine ⟨viewed.occ, ?_, ?_, held.1, held.2, fun isOpen => ?_, fun rebase => ?_, fun ord => ?_⟩
    · exact viewed.unsure.trans (by rw [wunsure])
    · rw [← handed.flagged]
      exact viewed.flag
    · have limit := opened ((topen _).symm.trans isOpen)
      rw [capacity] at limit
      exact limit
    · obtain ⟨limitEpoch, closed⟩ := rebased rebase
      exact ⟨limitEpoch, fun h => closed ((topen _).symm.trans h)⟩
    · obtain ⟨limitEpoch, closed⟩ := continued ord
      refine ⟨limitEpoch, fun h => ?_⟩
      obtain ⟨wasOpen, wasClosed⟩ := closed ((topen _).symm.trans h)
      refine ⟨fun before => ?_, wasClosed⟩
      obtain ⟨still, shut⟩ := wasOpen before
      have deltas : byDeltas ↔ ¬((deltaE ≤ 30 ∧ deltaX ≤ 30) ∧ ¬s.failsAt i (s.effCapacity i) sum) := by
        have counting : counted ↔ deltaE ≤ 30 ∧ deltaX ≤ 30 := and_iff_right ord
        rw [failsAt_iff (.inl isLock), not_and_or, not_not, ← counting]
        exact and_iff_right ord
      split
      · next closing =>
        refine shut fun ⟨same, passes⟩ => ?_
        exact closing.elim (fun h => deltas.1 h passes) fun other => other (mismatchOf_eq_none.1 same)
      · next open' =>
        rw [not_or, deltas, not_not, ne_eq, not_not] at open'
        exact still ⟨mismatchOf_eq_none.2 open'.2, open'.1⟩
  · have wfar : w.role i = .far := handed.role.trans far
    have viewed := viewed_handed handed (.inr far) f.epoch occ entryOcc
    obtain ⟨limitKept, limitEpochKept, dirKept⟩ := takeEntryBase_far wfar ((s.nbr i).entryKindAt f.epoch) f.epoch e
    have last := (farTaken_takeEntryRole (viewed.role.trans wfar) e).clearIsolation
      ((endStep_takeEntryRole i e _).role.trans (viewed.role.trans wfar))
    have same : ((w.takeEntryBase i ((s.nbr i).entryKindAt f.epoch) f.epoch e).takeEntryRole i e).clearIsolation i = u := entered
    rw [same] at last
    generalize w.takeEntryBase i ((s.nbr i).entryKindAt f.epoch) f.epoch e = b at viewed limitKept limitEpochKept dirKept last
    have marks : (b.seg i).unsure = true ↔ unsure := viewed.unsure.trans (by rw [wunsure])
    have flags : b.flagged .countInconsistent = true ↔ s.flagged .countInconsistent = true ∨ failed := by
      rw [← handed.flagged]
      exact viewed.flag
    have epoch : b.scu.epoch = s.scu.epoch := congrArg Scu.epoch (viewed.scu.trans handed.scu)
    obtain ⟨heldLimit, heldEpoch, ⟨limit', limitEpoch', dir'⟩, -, following, apart⟩ := last
    have wkept : (w.seg i).limit = g.limit ∧ (w.seg i).limitEpoch = g.limitEpoch ∧ (w.seg i).dir = g.dir :=
      handed.limits_far far
    rw [viewed.capacity, marks, epoch] at following
    rw [marks, epoch] at apart
    intro follows
    rw [seg, tflagged]
    refine ⟨heldLimit, heldEpoch, limit'.trans (limitKept.trans wkept.1), limitEpoch'.trans (limitEpochKept.trans wkept.2.1),
      dir'.trans (dirKept.trans wkept.2.2), ?_⟩
    by_cases follow : follows
    · obtain ⟨adopts, unsureAfter, flagAfter⟩ := following follow.1 follow.2.1 follow.2.2
      rw [Int.ofNat_lt] at unsureAfter flagAfter
      rw [flags] at flagAfter
      refine ⟨?_, ?_, ?_⟩
      · rw [if_pos follow]
        exact adopts.trans (min_eq_left entryOcc)
      · exact unsureAfter.trans ⟨fun above => .inl ⟨follow, above⟩, fun h => h.elim (·.2) fun h => absurd follow h.1⟩
      · exact flagAfter.trans (or_assoc.trans (or_congr_right (or_congr_right (and_iff_right follow).symm)))
    · obtain ⟨stays, unsureAfter, flagAfter⟩ := apart follow
      refine ⟨?_, ?_, ?_⟩
      · rw [if_neg follow]
        exact stays.trans viewed.occ
      · exact unsureAfter.trans ⟨fun h => .inr ⟨follow, h⟩, fun h => h.elim (fun h => absurd h.1 follow) (·.2)⟩
      · rw [flagAfter, flags]
        exact or_congr_right (or_iff_left fun h => follow h.1).symm

end Sys2Proof.Machine

/-! ## Rescue and overrun -/

namespace Sys2Proof.Machine

/-- What the overrun check does with a committed head (R153 to R155). -/
theorem overrunCheck_does {s : State} {i : Arm} {id : CarrierId} {c : Carrier} (head : s.head i = some c) (hid : c.id = id)
    (arrival : c.arrival = i) (waits : c.state ≠ .granted) (running : s.part = .running) (committed : c.committed s.cfg = true) :
    let rescue : Prop := s.held = false ∧ s.inbound i = true ∧ s.outbound c.exit = true
      ∧ (i ≠ c.exit ∧ (s.path i c.exit).permitted = true)
      ∧ (∀ k ∈ cellSet i c.exit, s.cell k = .free ∨ s.cell k = .reserved id)
      ∧ (s.wkp.state = .opened → s.walkArm i = false ∧ s.walkArm c.exit = false) ∧ s.admits c.exit = true
    (rescue → s.overrunCheck i id = (s.executeGrant c true).raise .rescue)
    ∧ (¬ rescue → Overruns s (s.overrunCheck i id)) := by
  subst hid arrival
  have granting : s.granting = true ↔ s.held = false := by simp [State.granting, running]
  rw [overrunCheck_committed head rfl waits running committed, ← granting, ← rescuable_iff]
  refine ⟨fun rescue => if_pos rescue, fun none' => ?_⟩
  rw [if_neg none']
  exact overruns_addCause running

/-- A change of a queue under an ANNOUNCE, before the overrun check: a CLEARANCE falls due, no other queue changes, and the
record found under the ID has, but for its part in a designation, the fields that the change gives it (R27 to R29). -/
theorem announced {link : Arm} {id : CarrierId} {f : List Carrier → List Carrier} {c : Carrier} {v : State} (law : QueueLaw v)
    (hc : (f (v.queue link)).find? (fun r => r.id == id) = some c) :
    let u := (v.onQueue link f).clearanceDue link id
    (∀ j, j ≠ link → u.queue j = v.queue j)
    ∧ (u.recordOn link id = some c
      ∨ (∃ o, v.jar.overdue = some o ∧ o.arrival = link ∧ o.id = id) ∧ u.recordOn link id = some c.undesignated)
    ∧ (u.queue link).map Carrier.id = (f (v.queue link)).map Carrier.id
    ∧ u.aqu.sends = v.aqu.sends.set link (withClearance id (v.aqu.sends.get link))
    ∧ u.scu = v.scu ∧ u.closures = v.closures ∧ u.hld = v.hld ∧ u.xu.unmatched = v.xu.unmatched ∧ u.xu.moves = v.xu.moves
    ∧ u.wkp = v.wkp := by
  intro u
  obtain ⟨moves, unmatched, -, -, -, sends, -⟩ := onQueue_crossing link f v
  have queue : ∀ j, u.queue j = (v.onQueue link f).queue j := fun j => by
    show ((v.onQueue link f).clearanceDue link id).queue j = _
    rw [clearanceDue_eq]
    rfl
  have record : u.recordOn link id = (v.onQueue link f).recordOn link id := by
    rw [State.recordOn, queue, State.recordOn]
  obtain ⟨scu, closures, xu, -, -, -, -, wkp, hld, -⟩ := clearanceDue_keeps link id (v.onQueue link f)
  obtain ⟨scu', closures', -, -, wkp', hld', -⟩ := onQueue_keeps link f v
  refine ⟨fun j hj => (queue j).trans ((onQueue_queues law link f).1 j hj), record ▸ onQueue_recordOn law hc, ?_, ?_,
    scu.trans scu', closures.trans closures', hld.trans hld', ?_, ?_, wkp.trans wkp'⟩
  · rw [queue, onQueue_ids, if_pos rfl]
  · show ((v.onQueue link f).clearanceDue link id).aqu.sends = _
    rw [clearanceDue_eq]
    dsimp only
    rw [sends]
  · rw [xu, unmatched]
  · rw [xu, moves]

/-- The same of a record changed in place. -/
theorem announced_update {link : Arm} {id : CarrierId} {g : Carrier → Carrier} {c : Carrier} {v : State} (law : QueueLaw v)
    (queued : v.recordOn link id = some c) (same : ∀ r, (g r).id = r.id) :
    let u := (v.onRecord link id g).clearanceDue link id
    (∀ j, j ≠ link → u.queue j = v.queue j)
    ∧ (u.recordOn link id = some (g c) ∨ u.recordOn link id = some (g c).undesignated)
    ∧ (u.queue link).map Carrier.id = (v.queue link).map Carrier.id
    ∧ u.aqu.sends = v.aqu.sends.set link (withClearance id (v.aqu.sends.get link))
    ∧ u.scu = v.scu ∧ u.closures = v.closures ∧ u.hld = v.hld ∧ u.xu.unmatched = v.xu.unmatched ∧ u.xu.moves = v.xu.moves
    ∧ u.wkp = v.wkp := by
  have found : (updateRecord id g (v.queue link)).find? (fun r => r.id == id) = some (g c) := by
    rw [find_updateRecord id g same, show (v.queue link).find? (fun r => r.id == id) = some c from queued]
    rfl
  obtain ⟨queues, record, ids, rest⟩ := announced law found
  exact ⟨queues, record.imp_right (·.2), ids.trans (updateRecord_ids id g same _), rest⟩

theorem unmatched_withdrawGrant (id : CarrierId) (s : State) : (s.withdrawGrant id).xu.unmatched = s.xu.unmatched := by
  cases h : s.grantOf id with
  | none => rw [withdrawGrant_none h]
  | some i =>
    obtain ⟨m, hm, -⟩ := move_of_grantOf h
    obtain ⟨-, -, -, -, unmatched, -⟩ := withdrawGrant_does h hm
    exact unmatched

/-- An accepted re-announce leaves its record at the fields of the message (R28). -/
theorem retake_fields {c r : Carrier} {link : Arm} {q : Request} (arrival : c.arrival = link)
    (taken : r = (c.retake q).heard.wake ∨ r = (c.retake q).heard.wake.undesignated) :
    r = { newRecord link c.id q with
      skip := r.skip, overdue := r.overdue, state := if c.state = .granted then .granted else .waiting } := by
  subst arrival
  rcases taken with rfl | rfl
  · rfl
  · rfl

/-- A re-announce that withdraws the grant leaves its record as a new one at the fields of the message (R29). -/
theorem retake_withdrawn_fields {c r : Carrier} {link : Arm} {q : Request} (arrival : c.arrival = link)
    (taken : r = { (c.retake q).heard with state := .waiting, skip := 0 }
      ∨ r = Carrier.undesignated { (c.retake q).heard with state := .waiting, skip := 0 }) :
    r = { newRecord link c.id q with overdue := r.overdue } := by
  subst arrival
  rcases taken with rfl | rfl
  · rfl
  · rfl

/-- From `s`, an ANNOUNCE of carrier `id` leads to the state `u`, but for the overrun check (R27 to R29). -/
structure AnnounceChecked (link : Arm) (id : CarrierId) (s u : State) : Prop where
  queues : ∀ j, j ≠ link → u.queue j = s.queue j
  sends : u.aqu.sends = s.aqu.sends.set link (withClearance id (s.aqu.sends.get link))
  scu : u.scu = s.scu
  closures : u.closures = s.closures
  hld : u.hld = s.hld
  unmatched : u.xu.unmatched = s.xu.unmatched

section
variable {link : Arm} {id : CarrierId} {q : Request} {s : State}

/-- A new ANNOUNCE that is accepted (R27). -/
theorem announceNew_checked (law : QueueLaw s) (fresh : ∀ r ∈ s.queue link, r.id ≠ id)
    (accepted : s.announceRefusal link id q = none) : ∃ u, s.handleAnnounce link id q = u.overrunCheck link id
      ∧ AnnounceChecked link id s u ∧ u.recordOn link id = some (newRecord link id q) ∧ u.xu.moves = s.xu.moves ∧ u.wkp = s.wkp
      ∧ (u.queue link).map Carrier.id = (insertRecord (newRecord link id q) (s.queue link)).map Carrier.id := by
  obtain ⟨queues, record, ids, sends, scu, closures, hld, unmatched, moves, wkp⟩ := announced law
    (f := insertRecord (newRecord link id q)) (find_insertRecord (c := newRecord link id q) fresh)
  have handled : s.handleAnnounce link id q
      = (((s.onQueue link (insertRecord (newRecord link id q))).clearanceDue link id).overrunCheck link id) := by
    rw [handleAnnounce_new fresh]
    unfold State.announceNew
    rw [accepted]
  refine ⟨_, handled, ⟨queues, sends, scu, closures, hld, unmatched⟩, ?_, moves, wkp, ids⟩
  rcases record with found | ⟨⟨o, designated, here, hid⟩, -⟩
  · exact found
  · obtain ⟨h, head, hid', -⟩ := law.2 o designated
    exact absurd (hid'.trans hid) (fresh h (mem_queue_of_head (here ▸ head)))

/-- A re-announce that is accepted (R28). -/
theorem reannounce_checked {c : Carrier} (law : QueueLaw s) (queued : s.recordOn link id = some c) (short : ¬400 < q.length)
    (route : ¬s.noRoute link q.exit = true) (same : c.state = .granted → c.exit = q.exit) :
    ∃ u r, s.handleAnnounce link id q = u.overrunCheck link id ∧ AnnounceChecked link id s u ∧ u.recordOn link id = some r
      ∧ (u.queue link).map Carrier.id = (s.queue link).map Carrier.id ∧ u.xu.moves = s.xu.moves ∧ u.wkp = s.wkp
      ∧ r = { newRecord link id q with
          skip := r.skip, overdue := r.overdue, state := if c.state = .granted then .granted else .waiting } := by
  obtain ⟨mem, rfl⟩ := recordOn_some queued
  obtain ⟨queues, record, ids, sends, scu, closures, hld, unmatched, moves, wkp⟩ :=
    announced_update (g := fun c => (c.retake q).heard.wake) law queued fun _ => rfl
  have handled : s.handleAnnounce link c.id q = s.acceptReannounce link c.id q := by
    rw [handleAnnounce_queued queued, reannounce_accepted short route same]
  have fields {r : Carrier} := retake_fields (r := r) (q := q) (law.1 link c mem)
  rcases record with found | found
  · exact ⟨_, _, handled, ⟨queues, sends, scu, closures, hld, unmatched⟩, found, ids, moves, wkp, fields (.inl rfl)⟩
  · exact ⟨_, _, handled, ⟨queues, sends, scu, closures, hld, unmatched⟩, found, ids, moves, wkp, fields (.inr rfl)⟩

/-- A re-announce for another exit that withdraws the grant (R29). -/
theorem reannounce_withdrawn_checked {c : Carrier} (law : QueueLaw s) (queued : s.recordOn link id = some c)
    (short : ¬400 < q.length) (route : ¬s.noRoute link q.exit = true) (granted : c.state = .granted) (other : c.exit ≠ q.exit)
    (free : committed s.cfg c.cls q.distance q.speed = false) :
    ∃ u r, s.handleAnnounce link id q = u.overrunCheck link id ∧ AnnounceChecked link id s u ∧ u.recordOn link id = some r
      ∧ (u.queue link).map Carrier.id = (s.queue link).map Carrier.id ∧ r = { newRecord link id q with overdue := r.overdue } := by
  obtain ⟨mem, rfl⟩ := recordOn_some queued
  obtain ⟨scu', aqu', closures', -, -, hld', -⟩ := withdrawGrant_keeps c.id s
  have queue' (j : Arm) : (s.withdrawGrant c.id).queue j = s.queue j := by rw [State.queue, aqu', State.queue]
  have queued' : (s.withdrawGrant c.id).recordOn link c.id = some c := by
    rw [State.recordOn, queue']
    exact queued
  obtain ⟨queues, record, ids, sends, scu, closures, hld, unmatched, -⟩ :=
    announced_update (g := fun r => { (r.retake q).heard with state := .waiting, skip := 0 }) (queueLaw_withdrawGrant c.id law)
      queued' fun _ => rfl
  have handled : s.handleAnnounce link c.id q = (((s.withdrawGrant c.id).onRecord link c.id fun r =>
      { (r.retake q).heard with state := .waiting, skip := 0 }).clearanceDue link c.id).overrunCheck link c.id := by
    rw [handleAnnounce_queued queued, reannounce_underGrant short route granted other]
    exact if_neg (by simp [free])
  have checked : AnnounceChecked link c.id s (((s.withdrawGrant c.id).onRecord link c.id fun r =>
      { (r.retake q).heard with state := .waiting, skip := 0 }).clearanceDue link c.id) :=
    ⟨fun j hj => (queues j hj).trans (queue' j), by rw [sends, aqu'], scu.trans scu', closures.trans closures', hld.trans hld',
      unmatched.trans (unmatched_withdrawGrant c.id s)⟩
  rw [queue'] at ids
  have fields {r : Carrier} := retake_withdrawn_fields (r := r) (q := q) (law.1 link c mem)
  rcases record with found | found
  · exact ⟨_, _, handled, checked, found, ids, fields (.inl rfl)⟩
  · exact ⟨_, _, handled, checked, found, ids, fields (.inr rfl)⟩

end

end Sys2Proof.Machine

/-! ## No entry is added by a hold entry -/

namespace Sys2Proof.Machine

/-- Every entry in a carrier list of `t` stands in that of `s`. -/
def NoNewEntry (s t : State) : Prop :=
  ∀ i m, t.move i = some m → ∃ n, s.move i = some n ∧ ∀ e ∈ m.carriers, e ∈ n.carriers

theorem NoNewEntry.of_moves {s t : State} (h : t.xu.moves = s.xu.moves) : NoNewEntry s t := fun i m hm =>
  ⟨m, by rw [State.move, ← h]; exact hm, fun _ he => he⟩

theorem NoNewEntry.refl (s : State) : NoNewEntry s s := .of_moves rfl

theorem NoNewEntry.trans {s t u : State} (h : NoNewEntry s t) (h' : NoNewEntry t u) : NoNewEntry s u := fun i m hm => by
  obtain ⟨n, hn, sub⟩ := h' i m hm
  obtain ⟨o, ho, sub'⟩ := h i n hn
  exact ⟨o, ho, fun e he => sub' e (sub e he)⟩

theorem noNewEntry_withdrawGrant (id : CarrierId) (s : State) : NoNewEntry s (s.withdrawGrant id) := by
  cases h : s.grantOf id with
  | none =>
    rw [withdrawGrant_none h]
    exact .refl s
  | some i =>
    obtain ⟨m, hm, -⟩ := move_of_grantOf h
    obtain ⟨moves, -⟩ := withdrawGrant_does h hm
    intro j n hn
    rw [moves] at hn
    split at hn
    · next same =>
      subst same
      split at hn
      · cases hn
      · cases hn
        exact ⟨m, hm, fun e he => List.mem_of_mem_filter he⟩
    · exact ⟨n, hn, fun _ he => he⟩

theorem noNewEntry_foldl {α : Type} {f : State → α → State} (hf : ∀ s a, NoNewEntry s (f s a)) (l : List α) (s : State) :
    NoNewEntry s (l.foldl f s) := by
  induction l generalizing s with
  | nil => exact .refl s
  | cons a l ih => exact (hf s a).trans (ih _)

theorem noNewEntry_holdGrants (s : State) : NoNewEntry s s.holdGrants := by
  refine noNewEntry_foldl (fun t i => ?_) _ s
  split
  · exact .refl t
  · refine noNewEntry_foldl (fun u e => ?_) _ t
    unfold State.holdEntryGrant
    split
    · exact (noNewEntry_withdrawGrant e.id u).trans (.of_moves (onQueue_crossing i _ _).1)
    · exact .refl u

theorem noNewEntry_holdFrom (emergency : Bool) (s : State) : NoNewEntry s (s.holdFrom emergency) := by
  obtain ⟨-, -, -, -, -, -, -, -, -, -, -, moves, -⟩ := holdStart_keeps emergency s
  have withdrawn : NoNewEntry (s.holdStart emergency) (s.holdFrom emergency) := by
    show NoNewEntry _ (s.holdStart emergency).withdrawAll
    rw [State.withdrawAll, clearanceAll_eq]
    exact noNewEntry_holdGrants (s.holdStart emergency)
  exact (NoNewEntry.of_moves moves).trans withdrawn

/-- A carrier without a grant gets none. -/
theorem NoNewEntry.ungranted {s t : State} (h : NoNewEntry s t) {id : CarrierId} (ungranted : s.grantOf id = none) :
    t.grantOf id = none := by
  refine List.find?_eq_none.2 fun i hi => ?_
  split
  · exact nofun
  · next m hm =>
    obtain ⟨n, hn, sub⟩ := h i m hm
    have before := List.find?_eq_none.1 ungranted i hi
    rw [hn] at before
    simp only [List.any_eq_true, not_exists, not_and] at before ⊢
    exact fun e he => before e (sub e he)

theorem noNewEntry_overrun {s : State} (running : s.part = .running) :
    NoNewEntry s ((s.raise .overrun).addCause .overrun) := by
  have part : (s.raise .overrun).part.holds := .inr (.inr running)
  cases held : s.held with
  | true => exact .of_moves ((overruns_addCause running).moves held)
  | false =>
    rw [addCause_first part held]
    exact noNewEntry_holdFrom _ ((s.raise .overrun).modHld (Hld.add .overrun))

theorem retestDeferred_ungranted {s : State} {i : Arm} {id : CarrierId} (ungranted : s.grantOf id = none) :
    s.retestDeferred i id = s := by
  have none' : s.lapseDeferred id = false := by
    unfold State.lapseDeferred
    rw [ungranted]
    rfl
  unfold State.retestDeferred
  rw [none']
  rfl

end Sys2Proof.Machine

/-! ## A POSITION of the head of a queue, before the overrun check (R30) -/

namespace Sys2Proof.Machine

theorem noteDemand_same {old s : State} (same : ∀ j, s.demand j = old.demand j) : State.noteDemand old s = s := by
  unfold State.noteDemand
  exact List.foldl_fixed' (fun j => if_pos (same j)) _

theorem checkOverdue_segs (s : State) : s.checkOverdue.segs = s.segs := by simp

/-- A change of a queue that leaves the demand leaves the segment ends. -/
theorem onQueue_segs {s : State} {i : Arm} {f : List Carrier → List Carrier}
    (same : ∀ j, (f (s.queue i)).countP (Carrier.demands j) = (s.queue i).countP (Carrier.demands j)) :
    (s.onQueue i f).segs = s.segs := by
  have demand : ∀ j, (s.putQueue i (f (s.queue i))).demand j = s.demand j := fun j => by
    have most : s.demand j ≤ 15 := min_le_left _ _
    rw [demand_of_set (s := s) (i := i) (q := f (s.queue i)) (n := 0) rfl (by rw [same, Nat.add_zero])]
    omega
  unfold State.onQueue
  dsimp only
  rw [noteDemand_same demand, checkOverdue_segs]
  split
  · rw [trigger_eq]
    rfl
  · rfl

theorem positioned_demands (d v : Nat) (j : Arm) (c : Carrier) : Carrier.demands j (c.positioned d v) = Carrier.demands j c := by
  unfold Carrier.demands Carrier.positioned Carrier.wake Carrier.heard
  cases c.state <;> rfl

theorem countP_updateRecord {p : Carrier → Bool} {f : Carrier → Carrier} (id : CarrierId) (same : ∀ c, p (f c) = p c)
    (q : List Carrier) : (updateRecord id f q).countP p = q.countP p := by
  unfold updateRecord
  rw [List.countP_map]
  refine List.countP_congr fun c _ => ?_
  rw [Function.comp_apply]
  split
  · rw [same]
  · exact Iff.rfl

/-- A state that differs from another in queues, links and arbitration alone. -/
theorem frame_of_keeps {s t : State} (scu : t.scu = s.scu) (closures : t.closures = s.closures) (xu : t.xu = s.xu)
    (segs : t.segs = s.segs) (nbrs : t.nbrs = s.nbrs) (fli : t.fli = s.fli) (wkp : t.wkp = s.wkp) (hld : t.hld = s.hld)
    (mtp : t.mtp = s.mtp) (now : t.now = s.now) (pending : t.pending = s.pending) :
    ∃ aqu jar, t = { s with aqu := aqu, jar := jar } := by
  refine ⟨t.aqu, t.jar, ?_⟩
  rw [← scu, ← closures, ← xu, ← segs, ← nbrs, ← fli, ← wkp, ← hld, ← mtp, ← now, ← pending]

/-- The record at the head takes a POSITION, and nothing else changes but the links and the round due (R30). -/
structure HeadPositioned (link i : Arm) (id : CarrierId) (d v : Nat) (c : Carrier) (s u : State) : Prop where
  head : u.head i = some (c.positioned d v)
  queue : u.queue i = updateRecord id (Carrier.positioned d v) (s.queue i)
  queues : ∀ j, j ≠ i → u.queue j = s.queue j
  sends : u.aqu.sends = s.aqu.sends.set link (withClearance id (s.aqu.sends.get link))
  overdue : u.jar.overdue = s.jar.overdue
  segs : u.segs = s.segs
  xu : u.xu = s.xu
  scu : u.scu = s.scu
  closures : u.closures = s.closures
  nbrs : u.nbrs = s.nbrs
  wkp : u.wkp = s.wkp
  hld : u.hld = s.hld
  mtp : u.mtp = s.mtp
  frame : ∃ aqu jar, u = { s with aqu := aqu, jar := jar }

theorem HeadPositioned.before {link i : Arm} {id : CarrierId} {d v : Nat} {c : Carrier} {s u : State}
    (h : HeadPositioned link i id d v c (s.huntLink link) u) : HeadPositioned link i id d v c s u := by
  obtain ⟨aqu, jar, frame⟩ := h.frame
  exact ⟨h.head, h.queue, h.queues, h.sends, h.overdue, h.segs, h.xu, h.scu, h.closures, h.nbrs, h.wkp, h.hld, h.mtp,
    aqu, jar, frame⟩

theorem headPositioned (link : Arm) {i : Arm} {id : CarrierId} (d v : Nat) {c : Carrier} {s : State} (law : QueueLaw s)
    (head : s.head i = some c) (hid : c.id = id) : HeadPositioned link i id d v c s (s.positioned link i id d v) := by
  have newHead : (updateRecord id (Carrier.positioned d v) (s.queue i)).head? = some (c.positioned d v) := by
    rw [head_updateRecord, show (s.queue i).head? = some c from head, Option.map_some, if_pos hid]
  have spared : s.sparedBy i (updateRecord id (Carrier.positioned d v) (s.queue i)) := fun o designated => by
    obtain ⟨h, stands, hid', waiting, exit⟩ := law.2 o designated
    split
    · next here =>
      rw [← here, head] at stands
      cases stands
      refine ⟨_, newHead, hid', ?_, exit⟩
      unfold Carrier.positioned Carrier.wake Carrier.heard
      rw [waiting]
      rfl
    · exact ⟨h, stands, hid', waiting, exit⟩
  obtain ⟨overdue, xu, aqu⟩ := onQueue_spared spared
  have segs := onQueue_segs (s := s) (i := i) (f := updateRecord id (Carrier.positioned d v)) fun j =>
    countP_updateRecord id (positioned_demands d v j) _
  obtain ⟨scu, closures, nbrs, fli, wkp, hld, mtp, now, pending⟩ := onRecord_keeps i id (Carrier.positioned d v) s
  unfold State.positioned
  rw [clearanceDue_eq]
  have queue (j : Arm) : (s.onRecord i id (Carrier.positioned d v)).queue j
      = if i = j then updateRecord id (Carrier.positioned d v) (s.queue i) else s.queue j :=
    queue_of_set (congrArg Aqu.queues aqu) j
  refine ⟨?_, ?_, fun j other => ?_, ?_, overdue, segs, xu, scu, closures, nbrs, wkp, hld, mtp,
    frame_of_keeps scu closures xu segs nbrs fli wkp hld mtp now pending⟩
  · show ((s.onRecord i id (Carrier.positioned d v)).queue i).head? = _
    rw [queue, if_pos rfl, newHead]
  · show (s.onRecord i id (Carrier.positioned d v)).queue i = _
    rw [queue, if_pos rfl]
  · show (s.onRecord i id (Carrier.positioned d v)).queue j = _
    rw [queue, if_neg (Ne.symm other)]
  · have same : (s.onRecord i id (Carrier.positioned d v)).aqu.sends = s.aqu.sends := by rw [State.onRecord, aqu]
    dsimp only
    rw [same]

section
variable {link i : Arm} {id : CarrierId} {d v : Nat} {c : Carrier} {s u : State}

theorem HeadPositioned.ids (h : HeadPositioned link i id d v c s u) (j : Arm) :
    (u.queue j).map Carrier.id = (s.queue j).map Carrier.id := by
  by_cases same : j = i
  · rw [same, h.queue]
    exact updateRecord_ids id (Carrier.positioned d v) (fun _ => rfl) _
  · rw [h.queues j same]

theorem HeadPositioned.move (h : HeadPositioned link i id d v c s u) (j : Arm) : u.move j = s.move j := by
  rw [State.move, h.xu, State.move]

theorem HeadPositioned.cell (h : HeadPositioned link i id d v c s u) (k : Arm) : u.cell k = s.cell k := by
  rw [State.cell, h.xu, State.cell]

theorem HeadPositioned.grantOf (h : HeadPositioned link i id d v c s u) : u.grantOf id = s.grantOf id := by
  unfold State.grantOf State.move
  rw [h.xu]

theorem HeadPositioned.crossingLaw (h : HeadPositioned link i id d v c s u) (law : CrossingLaw s) : CrossingLaw u := by
  unfold CrossingLaw State.move State.cell at *
  rw [h.xu]
  exact law

/-- A POSITION changes neither the arrivals nor what the designation is for. -/
theorem HeadPositioned.queueLaw (h : HeadPositioned link i id d v c s u) (head : s.head i = some c) (law : QueueLaw s) :
    QueueLaw u := by
  refine ⟨fun j r hr => ?_, fun o designated => ?_⟩
  · by_cases same : j = i
    · subst same
      rw [h.queue] at hr
      exact arrivals_updateRecord (f := Carrier.positioned d v) (fun _ => rfl) (law.1 j) r hr
    · rw [h.queues j same] at hr
      exact law.1 j r hr
  · rw [h.overdue] at designated
    obtain ⟨hd, stands, hid, waiting, exit⟩ := law.2 o designated
    by_cases here : o.arrival = i
    · rw [here, head] at stands
      cases stands
      refine ⟨c.positioned d v, here ▸ h.head, hid, ?_, exit⟩
      unfold Carrier.positioned Carrier.wake Carrier.heard
      rw [waiting]
      rfl
    · refine ⟨hd, ?_, hid, waiting, exit⟩
      rw [State.head, h.queues _ here]
      exact stands

end

end Sys2Proof.Machine

/-! ## A POSITION that overruns (R155) -/

namespace Sys2Proof.Machine

theorem positioned_grantLaw (link i : Arm) (id : CarrierId) (d v : Nat) {s : State} (law : QueueLaw s) (grants : GrantLaw s) :
    GrantLaw (s.positioned link i id d v) := by
  have act : Act true s (s.onRecord i id (Carrier.positioned d v)) :=
    .amend i id (Carrier.positioned d v) (fun _ => ⟨rfl, rfl⟩) fun _ _ => wake_amends rfl fun _ => rfl
  have kept := act.keeps_grantLaw _ _ _ law grants
  unfold State.positioned
  rw [clearanceDue_eq]
  exact kept

/-- What an OVERRUN leaves at the end of its event, from the state `s` before the POSITION (R155, R156). -/
structure PositionOverran (link i : Arm) (id : CarrierId) (s t : State) : Prop where
  overrun : t.flagged .overrun = true
  cause : t.hld.overrun = true
  beacon : t.beacon = true
  granting : t.granting = false
  rescue : t.flagged .rescue = s.flagged .rescue
  unauthorised : t.hld.unauthorised = s.hld.unauthorised
  operator : t.hld.operator = s.hld.operator
  closed : s.heldForCarrier = false → ∀ k, t.cell k ≠ .free ∧ ∀ id', t.cell k ≠ .reserved id'
  entered : s.held = false → t.jar.overdue = none ∧ t.jar.due = false ∧ t.wkp.state = .closed
    ∧ (CrossingLaw s → GrantLaw s → GrantsHeld s t)
    ∧ ∀ j, t.aqu.sends.get j = withClearances (s.queue j)
        (if j = link then withClearance id (s.aqu.sends.get j) else s.aqu.sends.get j)
  unmatched : t.xu.unmatched = s.xu.unmatched
  scu : t.scu = s.scu
  closures : t.closures = s.closures
  nbrs : t.nbrs = s.nbrs

theorem beacon_of_cause {t : State} (cause : t.hld.overrun = true) : t.beacon = true := by
  unfold State.beacon State.held
  rw [cause]
  rfl

theorem granting_of_cause {t : State} (cause : t.hld.overrun = true) : t.granting = false := by
  unfold State.granting State.held
  rw [cause]
  exact Bool.and_false _

section
variable {link i : Arm} {id : CarrierId} {d v : Nat} {c : Carrier} {s u t : State}

theorem HeadPositioned.held (h : HeadPositioned link i id d v c s u) : u.held = s.held := by
  unfold State.held
  rw [h.hld]

theorem HeadPositioned.heldForCarrier (h : HeadPositioned link i id d v c s u) : u.heldForCarrier = s.heldForCarrier := by
  unfold State.heldForCarrier
  rw [h.hld]

theorem HeadPositioned.sendsAt (h : HeadPositioned link i id d v c s u) (j : Arm) : u.aqu.sends.get j =
    if j = link then withClearance id (s.aqu.sends.get j) else s.aqu.sends.get j := by
  rw [h.sends, Quad.get_set]
  by_cases same : j = link
  · rw [if_pos same, if_pos same.symm, same]
  · rw [if_neg same, if_neg (Ne.symm same)]

/-- An OVERRUN at a POSITION, and the end of its event. -/
theorem positionOverran (h : HeadPositioned link i id d v c s u) (head : s.head i = some c) (waits : c.state ≠ .granted)
    (hid : c.id = id) (law : QueueLaw s) (lawful : GrantLaw s → GrantLaw u) (overran : Overruns u t) :
    PositionOverran link i id s (State.finish s t) := by
  obtain ⟨scu, aqu, closures, xu, nbrs, wkp, mtp, -⟩ := finish_keeps s t
  obtain ⟨overdue, -, -, -, -, overrun, unauthorised, operator⟩ := finish_causes s t
  have flagged := fun k => flagged_finish s t k
  have cause := overrun.trans overran.cause
  refine
    { overrun := (flagged .overrun).trans overran.flagged, cause, beacon := beacon_of_cause cause, granting := granting_of_cause cause
      rescue := ?_, unauthorised := unauthorised.trans (overran.unauthorised.trans (congrArg Hld.unauthorised h.hld))
      operator := operator.trans (overran.operator.trans (congrArg Hld.operator h.hld))
      closed := fun unheld => ?_, entered := fun unheld => ?_
      unmatched := (congrArg Xu.unmatched xu).trans (overran.unmatched.trans (congrArg Xu.unmatched h.xu))
      scu := scu.trans (overran.scu.trans h.scu), closures := closures.trans (overran.closures.trans h.closures)
      nbrs := nbrs.trans (overran.nbrs.trans h.nbrs) }
  · rw [flagged, overran.flags .rescue nofun nofun, State.flagged, h.mtp, State.flagged]
  · have cells := overran.closed (h.heldForCarrier.trans unheld)
    intro k
    rw [State.cell, xu]
    exact cells k
  · obtain ⟨designation, due, walkway, granted, sends⟩ := overran.entered (h.held.trans unheld)
    refine ⟨overdue.trans designation, ?_, ?_, fun crossing grants => ?_, fun j => ?_⟩
    · rw [finish_due, due, granting_of_cause overran.cause]
      rfl
    · rw [wkp]
      exact walkway
    · have kept : ∀ j, ∀ r ∈ s.queue j, r.state = .granted → r ∈ u.queue j := fun j r hr granted' => by
        by_cases same : j = i
        · subst same
          rw [h.queue]
          refine mem_updateRecord_other hr fun isHead => waits ?_
          have one : r = c := (((grantLaw_iff s).mp grants).1.eq_of_id hr (mem_queue_of_head head) (isHead.trans hid.symm)).2
          rw [← one]
          exact granted'
        · rw [h.queues j same]
          exact hr
      have held := (granted (h.crossingLaw crossing) (h.queueLaw head law) (lawful grants)).of_granted grants (lawful grants)
        (congrArg Scu.cfg h.scu) h.move (fun j => by rw [State.seg, h.segs, State.seg]) kept
      refine held.of_outcome (fun j => by rw [State.move, xu, State.move]) (fun j => ?_) fun j => by rw [State.queue, aqu, State.queue]
      exact (finish_counts s t j).2.2.1
    · rw [aqu, sends, withClearances_congr (h.ids j), h.sendsAt]

end

end Sys2Proof.Machine

/-! ## A rescue grant, with or without a designation for its carrier (R57, R85, R154) -/

namespace Sys2Proof.Machine

/-- A designation stands for the record of a carrier (R85). -/
abbrev State.designatedFor (s : State) (c : Carrier) : Prop := ∃ o ∈ s.jar.overdue, o.id = c.id ∧ o.arrival = c.arrival

/-- What a grant that creates a movement record leaves, whatever the designation. -/
structure RescueGranted (c : Carrier) (s t : State) : Prop where
  moves : ∀ j, t.move j = if j = c.arrival then some ⟨c.exit, [grantedEntry c], 0, true⟩ else s.move j
  cells : ∀ k, t.cell k = if k ∈ cellSet c.arrival c.exit then .held c.arrival
    else if s.designatedFor c ∧ s.cell k = .reserved c.id then .free else s.cell k
  record : ∃ r, t.recordOn c.arrival c.id = some r ∧ r.state = .granted ∧ ∀ cfg, r.committed cfg = c.committed cfg
  reserved : (t.seg c.exit).r = min 15 ((s.seg c.exit).r + 1)
  hld : t.hld = s.hld
  scu : t.scu = s.scu
  flags : ∀ k, k ≠ .countInconsistent → t.flagged k = s.flagged k

/-- The designation for a carrier falls with its grant (R85). -/
theorem granted_falls {s : State} {c : Carrier} {o : Overdue} (hid : o.id = c.id) (here : o.arrival = c.arrival) :
    s.fallsBy c.arrival (updateRecord c.id Carrier.granted (s.queue c.arrival)) o := by
  rintro h hh ⟨hid', waiting, -⟩
  rw [if_pos here.symm, head_updateRecord] at hh
  obtain ⟨h', -, rfl⟩ := Option.map_eq_some_iff.1 hh
  by_cases same : h'.id = c.id
  · rw [if_pos same] at waiting
    exact absurd waiting nofun
  · rw [if_neg same] at hid'
    exact same (hid'.trans hid)

/-- The cells after the record of a granted carrier has changed. -/
theorem onRecord_granted_cells {s : State} {c : Carrier} (law : QueueLaw s) (k : Arm) :
    (∃ o ∈ s.jar.overdue, o.id = c.id ∧ o.arrival = c.arrival) ∧
      (s.onRecord c.arrival c.id Carrier.granted).cell k = (if s.cell k = .reserved c.id then .free else s.cell k)
    ∨ (¬∃ o ∈ s.jar.overdue, o.id = c.id ∧ o.arrival = c.arrival)
      ∧ (s.onRecord c.arrival c.id Carrier.granted).cell k = s.cell k := by
  by_cases designated : ∃ o ∈ s.jar.overdue, o.id = c.id ∧ o.arrival = c.arrival
  · obtain ⟨o, ho, hid, here⟩ := designated
    refine .inl ⟨⟨o, ho, hid, here⟩, ?_⟩
    rw [State.onRecord, (onQueue_ended ho (granted_falls hid here)).cells, hid]
  · have spares : DesignationSpares s c.arrival c.id :=
      ⟨law, fun o ho here hid => designated ⟨o, ho, hid, here⟩⟩
    refine .inr ⟨designated, ?_⟩
    rw [State.cell, (onRecord_spared spares Carrier.granted).2.1, State.cell]

theorem takeReservation_flagged (i : Arm) {k : EventKind} (hk : k ≠ .countInconsistent) (s : State) :
    (s.takeReservation i).flagged k = s.flagged k := takeView_flag k hk i _ _

theorem rescueGranted {s : State} {c : Carrier} (executable : s.grantExecutable c = true) (law : QueueLaw s)
    (head : s.head c.arrival = some c) : RescueGranted c s (s.executeGrant c true) := by
  rw [executeGrant_eq executable, finishGrant_eq]
  obtain ⟨scu, aqu, -, xu, jar, -, -, -, hld, -⟩ := takeReservation_keeps c.exit (s.opened c true)
  have r := (takeReservation_counts c.exit c.exit (s.opened c true)).1
  rw [if_pos rfl] at r
  have flags := fun k hk => takeReservation_flagged (k := k) c.exit hk (s.opened c true)
  have opened := opened_move c true s
  have cells := opened_cell c true s
  generalize (s.opened c true).takeReservation c.exit = w at *
  have queue (j : Arm) : w.queue j = s.queue j := by rw [State.queue, aqu]; rfl
  have wlaw : QueueLaw w := law.of_keeps (congrArg Aqu.queues aqu) (congrArg Jar.overdue jar)
  have wcell (k : Arm) : w.cell k = if k ∈ cellSet c.arrival c.exit then .held c.arrival else s.cell k := by
    rw [State.cell, xu, ← State.cell, cells]
  have designated : (∃ o ∈ w.jar.overdue, o.id = c.id ∧ o.arrival = c.arrival) ↔ s.designatedFor c := by
    rw [jar]
    exact Iff.rfl
  have found : (updateRecord c.id Carrier.granted (w.queue c.arrival)).find? (fun r => r.id == c.id) = some c.granted := by
    obtain ⟨rest, hq⟩ := List.head?_eq_some_iff.1 (show (s.queue c.arrival).head? = some c from head)
    rw [find_updateRecord c.id Carrier.granted (fun _ => rfl), queue, hq, List.find?_cons_of_pos (by simp)]
    rfl
  obtain ⟨moves, -⟩ := onQueue_crossing c.arrival (updateRecord c.id Carrier.granted) w
  obtain ⟨qscu, -, -, -, -, qhld, qmtp, -⟩ := onRecord_keeps c.arrival c.id Carrier.granted w
  obtain ⟨-, -, qr, -⟩ := onQueue_counts c.arrival c.exit (updateRecord c.id Carrier.granted) w
  have cell := onRecord_granted_cells (c := c) wlaw
  have record := onQueue_recordOn wlaw found
  rw [clearanceDue_eq]
  refine
    { moves := fun j => ?_, cells := fun k => ?_, record := ?_, reserved := qr.trans r, hld := qhld.trans hld
      scu := qscu.trans scu, flags := fun k hk => ?_ }
  · show (w.onQueue c.arrival (updateRecord c.id Carrier.granted)).move j = _
    rw [State.move, moves, xu, ← State.move, opened]
  · show (w.onRecord c.arrival c.id Carrier.granted).cell k = _
    rcases cell k with ⟨ends, same⟩ | ⟨stands, same⟩
    · rw [same, wcell]
      by_cases mem : k ∈ cellSet c.arrival c.exit
      · rw [if_pos mem, if_pos mem, if_neg nofun]
      · rw [if_neg mem, if_neg mem]
        exact if_congr (and_iff_right (designated.1 ends)).symm rfl rfl
    · rw [same, wcell, if_neg (c := s.designatedFor c ∧ s.cell k = .reserved c.id) fun h => stands (designated.2 h.1)]
  · rcases record with same | ⟨-, same⟩
    · exact ⟨c.granted, same, rfl, fun _ => rfl⟩
    · exact ⟨c.granted.undesignated, same, rfl, fun _ => rfl⟩
  · exact (show (w.onRecord c.arrival c.id Carrier.granted).flagged k = w.flagged k by
      rw [State.flagged, qmtp, State.flagged]).trans (flags k hk)

/-- No grant lapses of a carrier whose record is committed (R69). -/
theorem retestDeferred_committed {s : State} {i : Arm} {id : CarrierId} {r : Carrier} (found : s.recordOn i id = some r)
    (committed : r.committed s.cfg = true) : s.retestDeferred i id = s := by
  have entry : s.entryCommitted i id = true := by
    unfold State.entryCommitted
    rw [found]
    exact committed
  unfold State.retestDeferred
  rw [entry, Bool.not_true, Bool.and_false]
  rfl

end Sys2Proof.Machine

/-! ## Rescue or overrun: ANNOUNCE and POSITION (R27 to R30, R153 to R156) -/

namespace Sys2Proof.Machine

theorem self_mem_cellSet : ∀ i j : Arm, i ≠ j → i ∈ cellSet i j := by decide

/-- Under the law of the crossing, no cells can be taken from an arm with a movement record. -/
theorem move_none_of_takable {s : State} {i exit : Arm} {id : CarrierId} (law : CrossingLaw s) (away : i ≠ exit)
    (cells : ∀ k ∈ cellSet i exit, s.cell k = .free ∨ s.cell k = .reserved id) : s.move i = none := by
  cases move : s.move i with
  | none => rfl
  | some m =>
    obtain ⟨other, -, held⟩ := law.1 i m move
    have mine := held i (self_mem_cellSet i m.exit (Ne.symm other))
    rcases cells i (self_mem_cellSet i exit away) with free | reserved
    · rw [mine] at free
      cases free
    · rw [mine] at reserved
      cases reserved

/-- The conditions of a rescue grant (R154). -/
def State.rescues (s : State) (i exit : Arm) (id : CarrierId) : Prop :=
  s.held = false ∧ s.inbound i = true ∧ s.outbound exit = true ∧ (i ≠ exit ∧ (s.path i exit).permitted = true)
  ∧ (∀ k ∈ cellSet i exit, s.cell k = .free ∨ s.cell k = .reserved id)
  ∧ (s.wkp.state = .opened → s.walkArm i = false ∧ s.walkArm exit = false) ∧ s.admits exit = true

/-- A committed head that cannot be rescued overruns (R155). -/
theorem overrunCheck_overruns {s : State} {i : Arm} {id : CarrierId} {c : Carrier} (head : s.head i = some c) (hid : c.id = id)
    (arrival : c.arrival = i) (waits : c.state ≠ .granted) (running : s.part = .running) (committed : c.committed s.cfg = true)
    (fails : ¬s.rescues i c.exit id) : s.overrunCheck i id = (s.raise .overrun).addCause .overrun := by
  rw [overrunCheck_committed head hid waits running committed]
  refine if_neg fun rescue => fails ?_
  subst hid arrival
  obtain ⟨granting, conditions⟩ := rescuable_iff.1 rescue
  exact ⟨(granting_iff.1 granting).2, conditions⟩

section
variable {link i : Arm} {id : CarrierId} {d v : Nat} {c : Carrier} {s u : State}

/-- A POSITION changes nothing that a rescue grant asks for. -/
theorem HeadPositioned.rescues_iff (h : HeadPositioned link i id d v c s u) (j exit : Arm) (id' : CarrierId) :
    u.rescues j exit id' ↔ s.rescues j exit id' := by
  obtain ⟨aqu, jar, rfl⟩ := h.frame
  exact Iff.rfl

/-- A committed head that can be rescued, at a POSITION (R154). -/
theorem positionRescued (h : HeadPositioned link i id d v c s u) (law : QueueLaw u) (arrival : c.arrival = i) (hid : c.id = id)
    (running : s.part = .running) (committed : (c.positioned d v).committed s.cfg = true)
    (rescue : s.rescues i c.exit id) (move : s.move i = none) :
    RescueGranted (c.positioned d v) u (u.executeGrant (c.positioned d v) true)
    ∧ ((u.executeGrant (c.positioned d v) true).raise .rescue).retestDeferred i id
      = (u.executeGrant (c.positioned d v) true).raise .rescue := by
  subst hid arrival
  have again := (h.rescues_iff c.arrival c.exit c.id).2 rescue
  have part : u.part = .running := by rw [State.part, h.scu, ← State.part, running]
  have executable : u.grantExecutable (c.positioned d v) = true :=
    grantExecutable_iff.2 ⟨granting_iff.2 ⟨part, again.1⟩, (h.move _).trans move, again.2.2.2.2.1⟩
  have granted := rescueGranted executable law h.head
  refine ⟨granted, ?_⟩
  obtain ⟨r, found, -, same⟩ := granted.record
  refine retestDeferred_committed (r := r) found ?_
  rw [same]
  show (c.positioned d v).committed (u.executeGrant (c.positioned d v) true).cfg = true
  rw [State.cfg, granted.scu, h.scu, ← State.cfg, committed]

/-- What a rescue grant leaves at the end of its event, from the state `s` before the POSITION. -/
structure RescueEnded (c : Carrier) (s t : State) : Prop where
  rescue : t.flagged .rescue = true
  moves : ∀ j, t.move j = if j = c.arrival then some ⟨c.exit, [grantedEntry c], 0, true⟩ else s.move j
  cells : ∀ k, t.cell k = if k ∈ cellSet c.arrival c.exit then .held c.arrival
    else if s.designatedFor c ∧ s.cell k = .reserved c.id then .free else s.cell k
  record : (t.recordOn c.arrival c.id).map Carrier.state = some .granted
  reserved : (t.seg c.exit).r = min 15 ((s.seg c.exit).r + 1)
  causes : SameCauses s t
  overrun : t.flagged .overrun = s.flagged .overrun

theorem rescueEnded {t : State} (h : HeadPositioned link i id d v c s u) (granted : RescueGranted (c.positioned d v) u t) :
    RescueEnded c s (State.finish s (t.raise .rescue)) := by
  obtain ⟨-, aqu, -, xu, -⟩ := finish_keeps s (t.raise .rescue)
  have flagged := fun k => flagged_finish s (t.raise .rescue) k
  refine ⟨?_, fun j => ?_, fun k => ?_, ?_, ?_, sameCauses_finish (granted.hld.trans h.hld), ?_⟩
  · rw [flagged, flagged_raise]
    rfl
  · rw [State.move, xu]
    exact (granted.moves j).trans (by rw [h.move]; rfl)
  · rw [State.cell, xu]
    refine (granted.cells k).trans ?_
    have designated : u.designatedFor (c.positioned d v) ↔ s.designatedFor c := by
      unfold State.designatedFor
      rw [h.overdue]
      exact Iff.rfl
    rw [h.cell]
    exact if_congr Iff.rfl rfl (if_congr (and_congr_left' designated) rfl rfl)
  · obtain ⟨r, found, state, -⟩ := granted.record
    have here : (State.finish s (t.raise .rescue)).recordOn c.arrival c.id = some r := by
      rw [State.recordOn, State.queue, aqu]
      exact found
    rw [here, Option.map_some, state]
  · refine (finish_counts s (t.raise .rescue) c.exit).2.2.1.trans (granted.reserved.trans ?_)
    rw [State.seg, h.segs]
    rfl
  · rw [flagged, flagged_raise, decide_eq_false nofun, Bool.false_or, granted.flags .overrun nofun, State.flagged, h.mtp, State.flagged]

end

/-- Settles O18. -/
theorem rescueOrOverrun : Obligations.RescueOrOverrun := by
  refine ⟨fun s i id => ⟨overrunCheck_idle, fun c head hid arrival waits running committed => ?_⟩, ?_, ?_⟩
  · obtain ⟨rescues, overruns⟩ := overrunCheck_does head hid arrival waits running committed
    refine ⟨rescues, fun none' => ?_⟩
    have t := overruns none'
    exact ⟨t.flagged, t.cause, t.granting, t.unauthorised, t.operator, t.unmatched, t.ids, fun _ => t.closed, t.entered⟩
  · intro link id cls p exit length d v s released part present law new checked
    have does := exec_announce (id := id) (cls := cls) (p := p) (exit := exit) (length := length) (d := d) (v := v)
      released part present
    have law' : QueueLaw (s.huntLink link) := law
    have check {u : State} (handled : (s.huntLink link).handleAnnounce link id (requestOf cls p exit length d v)
        = u.overrunCheck link id) (h : AnnounceChecked link id (s.huntLink link) u) : checked u := by
      rw [handled] at does
      exact ⟨does, h.queues, h.sends, h.scu, h.closures, h.hld, h.unmatched⟩
    refine ⟨fun fresh accepted => ?_, fun c queued short other route permitted =>
      ⟨fun same => ?_, fun granted moved free => ?_⟩⟩
    · obtain ⟨u, handled, h, record, moves, wkp, ids⟩ := announceNew_checked (q := requestOf cls p exit length d v) law'
        (by exact fresh) ((announceRefusal_eq _ _ _ _ rfl).trans accepted)
      exact ⟨u, check handled h, record, moves, wkp, ids⟩
    · have open' : ¬(s.huntLink link).noRoute link exit = true := noRoute_of_open other route permitted
      obtain ⟨u, r, handled, h, record, ids, moves, wkp, fields⟩ := reannounce_checked (q := requestOf cls p exit length d v) law'
        (by exact queued) (Nat.not_lt.2 short) open' fun granted => same.resolve_left fun waits => waits granted
      exact ⟨u, r, check handled h, record, ids, moves, wkp, fields⟩
    · have open' : ¬(s.huntLink link).noRoute link exit = true := noRoute_of_open other route permitted
      obtain ⟨u, r, handled, h, record, ids, fields⟩ := reannounce_withdrawn_checked (q := requestOf cls p exit length d v) law'
        (by exact queued) (Nat.not_lt.2 short) open' granted moved free
      exact ⟨u, r, check handled h, record, ids, fields⟩
  · intro link i id d v c s released running present queued head hid arrival waits ungranted law committed rescue
    have does := exec_position (id := id) (d := d) (v := v) released (.inr running) present
    rw [handlePosition_queued (by exact queued), takePosition_eq] at does
    have h := (headPositioned link d.toNat (min 400 v.toNat) (s := s.huntLink link) law head hid).before
    have lawful : GrantLaw s → GrantLaw ((s.huntLink link).positioned link i id d.toNat (min 400 v.toNat)) := fun grants =>
      positioned_grantLaw link i id d.toNat (min 400 v.toNat) (s := s.huntLink link) law grants
    generalize (s.huntLink link).positioned link i id d.toNat (min 400 v.toNat) = u at does h lawful
    have upart : u.part = .running := by rw [State.part, h.scu, ← State.part, running]
    have ucommitted : (c.positioned d.toNat (min 400 v.toNat)).committed u.cfg = true := by
      rw [State.cfg, h.scu, ← State.cfg]
      exact committed
    have uwaits : (c.positioned d.toNat (min 400 v.toNat)).state ≠ .granted := by
      show (if c.state = .granted then CarrierState.granted else .waiting) ≠ .granted
      rw [if_neg waits]
      exact nofun
    obtain ⟨rescued, overran⟩ := overrunCheck_does h.head hid arrival uwaits upart ucommitted
    have rescues_iff := h.rescues_iff i c.exit id
    refine ⟨fun rescue => ?_, fun crossing none' => ?_⟩
    · obtain ⟨held, move, conditions⟩ := rescue
      obtain ⟨granted, kept⟩ := positionRescued h (h.queueLaw head law) arrival hid running committed ⟨held, conditions⟩ move
      rw [rescued (rescues_iff.2 ⟨held, conditions⟩), kept] at does
      have ended := rescueEnded h granted
      subst hid arrival
      refine ⟨_, does, ended.rescue, (ended.moves c.arrival).trans (if_pos rfl), fun j other => ?_, fun k => ?_, ?_, ?_, ended.causes,
        ended.overrun⟩
      · exact (ended.moves j).trans (if_neg other)
      · exact ended.cells k
      · exact ended.record
      · exact ended.reserved
    · have fails : ¬u.rescues i c.exit id := fun again => none' <| by
        obtain ⟨held, inbound, outbound, route, cells, rest⟩ := rescues_iff.1 again
        exact ⟨held, move_none_of_takable crossing route.1 cells, inbound, outbound, route, cells, rest⟩
      have check := overrunCheck_overruns h.head hid arrival uwaits upart ucommitted fails
      have still : (u.overrunCheck i id).retestDeferred i id = u.overrunCheck i id := by
        refine retestDeferred_ungranted ?_
        rw [check]
        exact (noNewEntry_overrun upart).ungranted (h.grantOf.trans ungranted)
      rw [still] at does
      have t := positionOverran h head waits hid law lawful (overran fails)
      refine ⟨_, does, t.overrun, t.cause, t.beacon, t.granting, t.rescue, t.unauthorised, t.operator, t.closed,
        fun unheld => ?_, t.unmatched, t.scu, t.closures, t.nbrs⟩
      obtain ⟨designation, due, walkway, granted, sends⟩ := t.entered unheld
      exact ⟨designation, due, walkway, granted crossing, sends⟩

end Sys2Proof.Machine

/-! ## The structural checks of a configuration image (R14, R15) -/

namespace Sys2Proof.Image

open Layout

theorem mem_presentArms {c : JunctionConfig} {i : Arm} : i ∈ presentArms c ↔ (c.arms.get i).present = true := by
  simp [presentArms]

theorem all_presentArms {c : JunctionConfig} {p : Arm → Bool} :
    (presentArms c).all p = true ↔ ∀ i, (c.arms.get i).present = true → p i = true := by
  rw [List.all_eq_true]
  exact forall_congr' fun i => by rw [mem_presentArms]

theorem two_le_presentArms (c : JunctionConfig) : 2 ≤ (presentArms c).length ↔
    ∃ i j, i ≠ j ∧ (c.arms.get i).present = true ∧ (c.arms.get j).present = true := by
  have table : ∀ p : Arm → Bool, 2 ≤ (Arm.list.filter p).length ↔ ∃ i j, i ≠ j ∧ p i = true ∧ p j = true := by decide
  exact table fun i => (c.arms.get i).present

theorem sharedNeighbour_eq_false (c : JunctionConfig) : sharedNeighbour c = false ↔
    ∀ i j, i ≠ j → (c.arms.get i).present = true → (c.arms.get j).present = true →
      (c.arms.get i).neighbour = (c.arms.get j).neighbour → (c.arms.get i).neighbour = 0 := by
  unfold sharedNeighbour
  simp only [List.any_eq_false, mem_presentArms, Bool.not_eq_true, List.any_eq_false, Bool.and_eq_true, bne_iff_ne, beq_iff_eq,
    not_and]
  constructor
  · intro apart i j other here there same
    by_contra named
    exact apart i here j there ⟨other, named⟩ same
  · intro apart i here j there ⟨other, named⟩ same
    exact named (apart i j other here there same)

theorem pathOffArms_eq_false (c : JunctionConfig) : pathOffArms c = false ↔
    ∀ i j, i ≠ j → ((c.paths.get i).get j).permitted = true →
      (c.arms.get i).present = true ∧ (c.arms.get j).present = true := by
  have off : pathOffArms c = true ↔ ∃ i j, (i ≠ j ∧ ((c.paths.get i).get j).permitted = true)
      ∧ ¬((c.arms.get i).present = true ∧ (c.arms.get j).present = true) := by
    unfold pathOffArms
    simp only [List.any_eq_true, Arm.mem_list, true_and, Bool.and_eq_true, bne_iff_ne, Bool.not_eq_true', ← Bool.not_eq_true]
  rw [← Bool.not_eq_true, off]
  constructor
  · intro none' i j other permitted
    by_contra absent
    exact none' ⟨i, j, ⟨other, permitted⟩, absent⟩
  · rintro on ⟨i, j, ⟨other, permitted⟩, absent⟩
    exact absent (on i j other permitted)

/-- An arm's traffic flows away from this node (R10). -/
def FlowsAway (own : Nat) (a : ArmConfig) : Prop := a.neighbour ≠ 0
  ∧ (a.kind = .oneWayUp ∧ own < a.neighbour ∨ a.kind = .oneWayDown ∧ ¬ own < a.neighbour)

/-- An arm's traffic flows toward this node (R10). -/
def FlowsToward (own : Nat) (a : ArmConfig) : Prop := a.neighbour ≠ 0
  ∧ (a.kind = .oneWayUp ∧ ¬ own < a.neighbour ∨ a.kind = .oneWayDown ∧ own < a.neighbour)

theorem flow_eq (own : Nat) (a : ArmConfig) :
    (flow own a = .away ↔ FlowsAway own a) ∧ (flow own a = .toward ↔ FlowsToward own a) := by
  unfold flow FlowsAway FlowsToward
  by_cases spur : a.neighbour = 0
  · simp [spur]
  · cases a.kind <;> by_cases up : own < a.neighbour <;> simp [spur, up]

theorem kindAgrees_iff (own : Nat) (a : ArmConfig) : kindAgrees own a = true ↔
    (FlowsToward own a → a.inbound = true ∧ a.outbound = false) ∧ (FlowsAway own a → a.outbound = true ∧ a.inbound = false) := by
  obtain ⟨away, toward⟩ := flow_eq own a
  rw [← away, ← toward]
  unfold kindAgrees
  cases flow own a <;> simp

/-- The seven structural checks (R14). -/
structure Checked (c : JunctionConfig) : Prop where
  address : 1 ≤ c.nodeAddress ∧ c.nodeAddress ≤ 63
  neighbours : ∀ i, (c.arms.get i).present = true → (c.arms.get i).neighbour ≤ 63 ∧ (c.arms.get i).neighbour ≠ c.nodeAddress
  apart : ∀ i j, i ≠ j → (c.arms.get i).present = true → (c.arms.get j).present = true →
    (c.arms.get i).neighbour = (c.arms.get j).neighbour → (c.arms.get i).neighbour = 0
  arms : ∃ i j, i ≠ j ∧ (c.arms.get i).present = true ∧ (c.arms.get j).present = true
  kinds : ∀ i, (c.arms.get i).present = true →
    (FlowsToward c.nodeAddress (c.arms.get i) → (c.arms.get i).inbound = true ∧ (c.arms.get i).outbound = false)
    ∧ (FlowsAway c.nodeAddress (c.arms.get i) → (c.arms.get i).outbound = true ∧ (c.arms.get i).inbound = false)
  paths : ∀ i j, i ≠ j → ((c.paths.get i).get j).permitted = true →
    (c.arms.get i).present = true ∧ (c.arms.get j).present = true

theorem passes_iff (c : JunctionConfig) : passes c = true ↔ Checked c := by
  unfold passes
  simp only [Bool.and_eq_true, all_presentArms, Bool.not_eq_true', sharedNeighbour_eq_false, pathOffArms_eq_false, kindAgrees_iff,
    decide_eq_true_eq, two_le_presentArms, bne_iff_ne]
  constructor
  · rintro ⟨⟨⟨⟨⟨⟨address, small⟩, foreign⟩, apart⟩, arms⟩, kinds⟩, paths⟩
    exact ⟨address, fun i here => ⟨small i here, foreign i here⟩, apart, arms, kinds, paths⟩
  · rintro ⟨address, neighbours, apart, arms, kinds, paths⟩
    exact ⟨⟨⟨⟨⟨⟨address, fun i here => (neighbours i here).1⟩, fun i here => (neighbours i here).2⟩, apart⟩, arms⟩, kinds⟩, paths⟩

/-- An image passes LOADING (R14). -/
structure Passes (image : List Byte) : Prop where
  length : image.length = 184
  crc : image = withCrc16 (image.take 182)
  checked : Checked (read image)

theorem load_of_passes {image : List Byte} (h : Passes image) : load image = some (clamp (read image)) := by
  have crc : crc16Ok image = true := by
    unfold crc16Ok
    rw [h.length]
    simpa using h.crc
  unfold load
  rw [if_pos (by simp [h.length, crc, size])]
  exact if_pos ((passes_iff _).2 h.checked)

theorem load_of_not_passes {image : List Byte} (h : ¬Passes image) : load image = none := by
  unfold load
  split
  · next frame =>
    simp only [Bool.and_eq_true, decide_eq_true_eq] at frame
    obtain ⟨length, crc⟩ := frame
    have length : image.length = 184 := length
    unfold crc16Ok at crc
    rw [length] at crc
    refine if_neg fun checks => h ⟨length, ?_, (passes_iff _).1 checks⟩
    simpa using crc
  · rfl

theorem load_eq_some {image : List Byte} {c : JunctionConfig} (h : load image = some c) :
    Passes image ∧ c = clamp (read image) := by
  by_cases passed : Passes image
  · rw [load_of_passes passed] at h
    exact ⟨passed, (Option.some.inj h).symm⟩
  · rw [load_of_not_passes passed] at h
    cases h

end Sys2Proof.Image

/-! ## The working configuration that an image gives (R7 to R13, R188) -/

namespace Sys2Proof.Image

open Layout

theorem clampTo_eq {lo hi : Nat} (range : lo ≤ hi) (x : Nat) :
    clampTo lo hi x = if x < lo then lo else if hi < x then hi else x := by
  unfold clampTo
  split
  · omega
  · split
    · omega
    · omega

theorem kindOf_eq (n : Nat) : kindOf n = if n = 1 then .oneWayUp else if n = 2 then .oneWayDown else .twoWay := by
  unfold kindOf
  split
  · rfl
  · rfl
  · next one two => rw [if_neg one, if_neg two]

theorem modeOf_eq (n : Nat) : modeOf n = if n = 1 then .cyclic else if n = 2 then .onDemand else .off := by
  unfold modeOf
  split
  · rfl
  · rfl
  · next one two => rw [if_neg one, if_neg two]

theorem rateOf_eq (n : Nat) : rateOf n = if n = 1 then .k250 else if n = 2 then .k500 else .k125 := by
  unfold rateOf
  split
  · rfl
  · rfl
  · next one two => rw [if_neg one, if_neg two]

theorem multipleOf_eq (n : Nat) : multipleOf n = if n = 0 then .x3 else if n = 2 then .x8 else .x5 := by
  unfold multipleOf
  split
  · rfl
  · rfl
  · next zero two => rw [if_neg zero, if_neg two]

/-- A table of four zones, clamped, ends before the first boundary that does not rise (R8). -/
theorem truncate_four (z0 z1 z2 z3 : Zone) : truncate [z0, z1, z2, z3] =
    [clampZone z0, clampZone z1, clampZone z2, clampZone z3].take
      (if (clampZone z0).bound < (clampZone z1).bound then
        (if (clampZone z1).bound < (clampZone z2).bound then
          (if (clampZone z2).bound < (clampZone z3).bound then 4 else 3) else 2) else 1) := by
  simp only [truncate, List.map_cons, List.map_nil, zonesAfter]
  split
  · split
    · split
      · rfl
      · rfl
    · rfl
  · rfl

theorem clampZone_eq (z : Zone) : clampZone z =
    ⟨if z.bound < 1 then 1 else if 65535 < z.bound then 65535 else z.bound,
      if z.limit < 10 then 10 else if 400 < z.limit then 400 else z.limit⟩ := by
  unfold clampZone
  rw [clampTo_eq (by decide), clampTo_eq (by decide)]

theorem eq_of_fields {a b : JunctionConfig} (nodeAddress : a.nodeAddress = b.nodeAddress) (xlim : a.xlim = b.xlim)
    (margin : a.margin = b.margin) (tLat : a.tLat = b.tLat) (headway : a.headway = b.headway)
    (startWindow : a.startWindow = b.startWindow) (clearTime : a.clearTime = b.clearTime) (platoon : a.platoon = b.platoon)
    (skipMax : a.skipMax = b.skipMax) (directionHold : a.directionHold = b.directionHold)
    (crossingProof : a.crossingProof = b.crossingProof) (crossingQuiet : a.crossingQuiet = b.crossingQuiet)
    (holdSettle : a.holdSettle = b.holdSettle) (debounce : a.debounce = b.debounce) (stuckTime : a.stuckTime = b.stuckTime)
    (carrierSilence : a.carrierSilence = b.carrierSilence) (boxFitted : a.boxFitted = b.boxFitted)
    (walkMode : a.walkMode = b.walkMode) (walkInterval : a.walkInterval = b.walkInterval) (walkOpen : a.walkOpen = b.walkOpen)
    (walkClearance : a.walkClearance = b.walkClearance) (bitRate : a.bitRate = b.bitRate)
    (reportInterval : a.reportInterval = b.reportInterval) (changeSpacing : a.changeSpacing = b.changeSpacing)
    (silenceMultiple : a.silenceMultiple = b.silenceMultiple) (refStage : a.refStage = b.refStage)
    (classes : ∀ k, a.classes.get k = b.classes.get k) (arms : ∀ i, a.arms.get i = b.arms.get i)
    (paths : ∀ i j, (a.paths.get i).get j = (b.paths.get i).get j) : a = b := by
  have classes' := Quad.ext_get classes
  have arms' := Quad.ext_get arms
  have paths' := Quad.ext_get fun i => Quad.ext_get (paths i)
  cases a
  cases b
  simp only at *
  subst_vars
  rfl

theorem arms_read (l : List Byte) (i : Arm) : (read l).arms.get i = readArm l (50 + 24 * i.val) := Quad.get_build _ i

theorem paths_read (l : List Byte) (i j : Arm) : ((read l).paths.get i).get j =
    if i = j then defaultPath else readPath l (146 + 3 * pathIndex i j) := by
  have row : (read l).paths.get i =
      Quad.build fun j => if i = j then defaultPath else readPath l (146 + 3 * pathIndex i j) := Quad.get_build _ i
  rw [row, Quad.get_build]

theorem arms_clamp (c : JunctionConfig) (i : Arm) : (clamp c).arms.get i = clampArm (c.arms.get i) := Quad.get_map _ _ i

theorem paths_clamp (c : JunctionConfig) (i j : Arm) : ((clamp c).paths.get i).get j =
    { (c.paths.get i).get j with length := clampTo 100 3000 ((c.paths.get i).get j).length } := by
  have row : (clamp c).paths.get i = ((c.paths.get i).map fun p => { p with length := clampTo 100 3000 p.length }) :=
    Quad.get_map _ _ i
  rw [row, Quad.get_map]

theorem classes_clamp (c : JunctionConfig) (k : Fin 4) : (clamp c).classes.get k =
    ⟨clampTo 10 250 (c.classes.get k).decel, clampTo 10 400 (c.classes.get k).limit⟩ := Quad.get_map _ _ k

theorem clampArm_present {a : ArmConfig} (present : a.present = true) : clampArm a = { a with
    kind := if a.neighbour = 0 then .twoWay else a.kind, capacity := clampTo 1 15 a.capacity
    exitClearance := clampTo 0 3000 a.exitClearance, quietTime := clampTo 10 600 a.quietTime, zones := truncate a.zones } := by
  unfold clampArm
  rw [if_pos present]

theorem clampArm_absent {a : ArmConfig} (absent : ¬a.present = true) : clampArm a = defaultArm := by
  unfold clampArm
  rw [if_neg absent]

/-- An arm's zone table in an image, clamped and truncated (R8). -/
theorem truncate_readArm (l : List Byte) (b : Nat) :
    let clamped (lo hi x : Nat) : Nat := if x < lo then lo else if hi < x then hi else x
    let bound (k : Nat) : Nat := clamped 1 65535 (twoAt l (b + 8 + 2 * k))
    let zone (k : Nat) : Zone := ⟨bound k, clamped 10 400 (twoAt l (b + 16 + 2 * k))⟩
    truncate (readArm l b).zones = [zone 0, zone 1, zone 2, zone 3].take
      (if bound 0 < bound 1 then (if bound 1 < bound 2 then (if bound 2 < bound 3 then 4 else 3) else 2) else 1) := by
  intro clamped bound zone
  show truncate [_, _, _, _] = _
  rw [truncate_four]
  simp only [clampZone_eq]
  rfl

end Sys2Proof.Image

/-! ## The image that passes LOADING (R14, R15, R188) -/

namespace Sys2Proof.Image

open Layout

/-- The checks of R14 speak of the bytes of the image (R188). -/
theorem passes_image_iff (image : List Byte) :
    let one (k : Nat) : Nat := byteAt image k
    let flag (i : Arm) (k : Nat) : Bool := (one (50 + 24 * i.val)).testBit k
    let present (i : Arm) : Prop := flag i 0 = true
    let neighbour (i : Arm) : Nat := one (51 + 24 * i.val)
    let kind (i : Arm) : SegKind :=
      if one (52 + 24 * i.val) = 1 then .oneWayUp else if one (52 + 24 * i.val) = 2 then .oneWayDown else .twoWay
    let away (i : Arm) : Prop := neighbour i ≠ 0
      ∧ (kind i = .oneWayUp ∧ one 0 < neighbour i ∨ kind i = .oneWayDown ∧ ¬ one 0 < neighbour i)
    let toward (i : Arm) : Prop := neighbour i ≠ 0
      ∧ (kind i = .oneWayUp ∧ ¬ one 0 < neighbour i ∨ kind i = .oneWayDown ∧ one 0 < neighbour i)
    Passes image ↔ image.length = 184 ∧ image = withCrc16 (image.take 182)
      ∧ (1 ≤ one 0 ∧ one 0 ≤ 63)
      ∧ (∀ i, present i → neighbour i ≤ 63 ∧ neighbour i ≠ one 0)
      ∧ (∀ i j, i ≠ j → present i → present j → neighbour i = neighbour j → neighbour i = 0)
      ∧ (∃ i j, i ≠ j ∧ present i ∧ present j)
      ∧ (∀ i, present i → (toward i → flag i 1 = true ∧ flag i 2 = false) ∧ (away i → flag i 2 = true ∧ flag i 1 = false))
      ∧ (∀ i j, i ≠ j → one (146 + 3 * pathIndex i j) ≠ 0 → present i ∧ present j) := by
  intro one flag present neighbour kind away toward
  have arm (i : Arm) := arms_read image i
  have kindAt (i : Arm) : ((read image).arms.get i).kind = kind i := by 
    rw [arm i]
    show kindOf (byteAt image (50 + 24 * i.val + 2)) = _
    rw [kindOf_eq, show 50 + 24 * i.val + 2 = 52 + 24 * i.val by omega]
  have presentAt (i : Arm) : ((read image).arms.get i).present = flag i 0 := by rw [arm i]; rfl
  have inboundAt (i : Arm) : ((read image).arms.get i).inbound = flag i 1 := by rw [arm i]; rfl
  have outboundAt (i : Arm) : ((read image).arms.get i).outbound = flag i 2 := by rw [arm i]; rfl
  have neighbourAt (i : Arm) : ((read image).arms.get i).neighbour = neighbour i := by
    rw [arm i]
    show byteAt image (50 + 24 * i.val + 1) = byteAt image (51 + 24 * i.val)
    congr 1
    omega
  have towardAt (i : Arm) : FlowsToward (read image).nodeAddress ((read image).arms.get i) ↔ toward i := by
    unfold FlowsToward
    rw [neighbourAt, kindAt]
    exact Iff.rfl
  have awayAt (i : Arm) : FlowsAway (read image).nodeAddress ((read image).arms.get i) ↔ away i := by
    unfold FlowsAway
    rw [neighbourAt, kindAt]
    exact Iff.rfl
  have pathAt (i j : Arm) (other : i ≠ j) :
      (((read image).paths.get i).get j).permitted = true ↔ one (146 + 3 * pathIndex i j) ≠ 0 := by
    rw [paths_read, if_neg other]
    exact bne_iff_ne
  constructor
  · rintro ⟨length, crc, address, neighbours, apart, arms, kinds, paths⟩
    simp only [presentAt, inboundAt, outboundAt, neighbourAt, towardAt, awayAt] at neighbours apart arms kinds paths
    exact ⟨length, crc, address, neighbours, apart, arms, kinds,
      fun i j other permitted => paths i j other ((pathAt i j other).2 permitted)⟩
  · rintro ⟨length, crc, address, neighbours, apart, arms, kinds, paths⟩
    refine ⟨length, crc, address, ?_, ?_, ?_, ?_, ?_⟩
    · simp only [presentAt, neighbourAt]
      exact neighbours
    · simp only [presentAt, neighbourAt]
      exact apart
    · simp only [presentAt]
      exact arms
    · simp only [presentAt, inboundAt, outboundAt, towardAt, awayAt]
      exact kinds
    · intro i j other permitted
      rw [presentAt, presentAt]
      exact paths i j other ((pathAt i j other).1 permitted)

theorem clampArm_readArm_present {l : List Byte} {b : Nat} (present : (byteAt l b).testBit 0 = true) :
    let clamped (lo hi x : Nat) : Nat := if x < lo then lo else if hi < x then hi else x
    let bound (k : Nat) : Nat := clamped 1 65535 (twoAt l (b + 8 + 2 * k))
    let zone (k : Nat) : Zone := ⟨bound k, clamped 10 400 (twoAt l (b + 16 + 2 * k))⟩
    clampArm (readArm l b) =
      { present := true, inbound := (byteAt l b).testBit 1, outbound := (byteAt l b).testBit 2
        queue := (byteAt l b).testBit 3, walkway := (byteAt l b).testBit 4, quietProof := (byteAt l b).testBit 5
        neighbour := byteAt l (b + 1)
        kind := if byteAt l (b + 1) = 0 then .twoWay else
          if byteAt l (b + 2) = 1 then .oneWayUp else if byteAt l (b + 2) = 2 then .oneWayDown else .twoWay
        capacity := clamped 1 15 (byteAt l (b + 3)), exitClearance := clamped 0 3000 (twoAt l (b + 4))
        quietTime := clamped 10 600 (twoAt l (b + 6))
        zones := [zone 0, zone 1, zone 2, zone 3].take
          (if bound 0 < bound 1 then (if bound 1 < bound 2 then (if bound 2 < bound 3 then 4 else 3) else 2) else 1) } := by
  intro clamped bound zone
  have held : (readArm l b).present = true := present
  have zones := truncate_readArm l b
  rw [clampArm_present held, zones, clampTo_eq (by decide), clampTo_eq (by decide), clampTo_eq (by decide)]
  show ArmConfig.mk (readArm l b).present _ _ _ _ _ _ (if _ then _ else kindOf (byteAt l (b + 2))) _ _ _ _ = _
  rw [held, kindOf_eq]
  rfl

end Sys2Proof.Image

/-! ## What LOADING makes of an image -/

namespace Sys2Proof.Image

open Layout

theorem load_eq_written {image : List Byte} (passed : Passes image) :
    let one (k : Nat) : Nat := (image.getD k 0).toNat
    let two (k : Nat) : Nat := one k + 256 * one (k + 1)
    let clamped (lo hi x : Nat) : Nat := if x < lo then lo else if hi < x then hi else x
    let flag (i : Arm) (k : Nat) : Bool := (one (50 + 24 * i.val)).testBit k
    let neighbour (i : Arm) : Nat := one (51 + 24 * i.val)
    let kind (i : Arm) : SegKind :=
      if one (52 + 24 * i.val) = 1 then .oneWayUp else if one (52 + 24 * i.val) = 2 then .oneWayDown else .twoWay
    let movement (i j : Arm) : Nat := 146 + 3 * (3 * i.val + if j.val < i.val then j.val else j.val - 1)
    let zones (i : Arm) : List Zone :=
      let bound (k : Nat) : Nat := clamped 1 65535 (two (58 + 24 * i.val + 2 * k))
      let zone (k : Nat) : Zone := ⟨bound k, clamped 10 400 (two (66 + 24 * i.val + 2 * k))⟩
      [zone 0, zone 1, zone 2, zone 3].take
        (if bound 0 < bound 1 then (if bound 1 < bound 2 then (if bound 2 < bound 3 then 4 else 3) else 2) else 1)
    let interval := clamped 100 1000 (two 32)
    load image = some
      { nodeAddress := one 0, xlim := clamped 10 400 (two 1), margin := clamped 0 200 (one 3), tLat := clamped 0 1000 (two 4)
        headway := clamped 20 500 (two 6), startWindow := clamped 500 10000 (two 8), clearTime := clamped 1 60 (one 10)
        platoon := clamped 0 7 (one 11), skipMax := clamped 1 15 (one 12), directionHold := clamped 5 300 (two 13)
        crossingProof := one 15 != 0, crossingQuiet := clamped 10 600 (two 16), holdSettle := clamped 500 10000 (two 18)
        debounce := clamped 10 200 (one 20), stuckTime := clamped 2 120 (one 21)
        carrierSilence := clamped 200 2000 (two 22), boxFitted := one 24 != 0
        walkMode := if one 25 = 1 then .cyclic else if one 25 = 2 then .onDemand else .off
        walkInterval := clamped 10 600 (two 26), walkOpen := clamped 0 120 (one 28), walkClearance := clamped 10 300 (two 29)
        bitRate := if one 31 = 1 then .k250 else if one 31 = 2 then .k500 else .k125
        reportInterval := interval, changeSpacing := clamped 20 interval (two 34)
        silenceMultiple := if one 36 = 0 then .x3 else if one 36 = 2 then .x8 else .x5, refStage := clamped 1 5 (one 37)
        classes := .build fun k => ⟨clamped 10 250 (one (38 + 3 * k.val)), clamped 10 400 (two (39 + 3 * k.val))⟩
        arms := .build fun i =>
          if flag i 0 = true then
            { present := true, inbound := flag i 1, outbound := flag i 2, queue := flag i 3, walkway := flag i 4
              quietProof := flag i 5, neighbour := neighbour i, kind := if neighbour i = 0 then .twoWay else kind i
              capacity := clamped 1 15 (one (53 + 24 * i.val)), exitClearance := clamped 0 3000 (two (54 + 24 * i.val))
              quietTime := clamped 10 600 (two (56 + 24 * i.val)), zones := zones i }
          else
            { present := false, inbound := false, outbound := false, queue := false, walkway := false, quietProof := false
              neighbour := 0, kind := .twoWay, capacity := 1, exitClearance := 0, quietTime := 30, zones := [⟨1, 10⟩] }
        paths := .build fun i => .build fun j =>
          if i = j then ⟨false, 100⟩
          else ⟨one (movement i j) != 0, clamped 100 3000 (two (movement i j + 1))⟩ } := by
  intro one two clamped flag neighbour kind movement zones interval
  have range {lo hi : Nat} (h : lo ≤ hi) (x : Nat) : clampTo lo hi x = clamped lo hi x := clampTo_eq h x
  have intervalAt : clampTo 100 1000 (twoAt image 32) = interval := range (by decide) _
  have wide : 20 ≤ interval := by
    rw [← intervalAt]
    exact Nat.le_trans (by decide) (Nat.le_max_left 100 _)
  rw [load_of_passes passed]
  refine congrArg some (eq_of_fields rfl (range (by decide) _) (range (by decide) _) (range (by decide) _)
    (range (by decide) _) (range (by decide) _) (range (by decide) _) (range (by decide) _) (range (by decide) _)
    (range (by decide) _) rfl (range (by decide) _) (range (by decide) _) (range (by decide) _) (range (by decide) _)
    (range (by decide) _) rfl (modeOf_eq _) (range (by decide) _) (range (by decide) _) (range (by decide) _) (rateOf_eq _)
    (range (by decide) _) ?spacing (multipleOf_eq _) (range (by decide) _) ?classes ?arms ?paths)
  case spacing =>
    show clampTo 20 (clampTo 100 1000 (twoAt image 32)) (twoAt image 34) = _
    rw [intervalAt]
    exact range wide _
  case classes =>
    intro k
    have class' : (read image).classes.get k = ⟨byteAt image (38 + 3 * k.val), twoAt image (39 + 3 * k.val)⟩ :=
      Quad.get_build _ k
    rw [classes_clamp, class', Quad.get_build, range (by decide), range (by decide)]
    rfl
  case arms =>
    intro i
    rw [arms_clamp, arms_read, Quad.get_build]
    by_cases present : (byteAt image (50 + 24 * i.val)).testBit 0 = true
    · rw [clampArm_readArm_present present, if_pos (show flag i 0 = true from present)]
      have at1 : 50 + 24 * i.val + 1 = 51 + 24 * i.val := by omega
      have at2 : 50 + 24 * i.val + 2 = 52 + 24 * i.val := by omega
      have at3 : 50 + 24 * i.val + 3 = 53 + 24 * i.val := by omega
      have at4 : 50 + 24 * i.val + 4 = 54 + 24 * i.val := by omega
      have at6 : 50 + 24 * i.val + 6 = 56 + 24 * i.val := by omega
      have at8 : 50 + 24 * i.val + 8 = 58 + 24 * i.val := by omega
      have at16 : 50 + 24 * i.val + 16 = 66 + 24 * i.val := by omega
      simp only [at1, at2, at3, at4, at6, at8, at16]
      rfl
    · rw [clampArm_absent present, if_neg (show ¬flag i 0 = true from present)]
      rfl
  case paths =>
    intro i j
    rw [paths_clamp, paths_read, Quad.get_build, Quad.get_build]
    by_cases same : i = j
    · rw [if_pos same, if_pos same]
      rfl
    · rw [if_neg same, if_neg same, range (by decide)]
      rfl

end Sys2Proof.Image

/-! ## The ranges of a loaded configuration (R7 to R15) -/

namespace Sys2Proof.Image

open Layout

theorem clampTo_range {lo hi : Nat} (range : lo ≤ hi) (x : Nat) : lo ≤ clampTo lo hi x ∧ clampTo lo hi x ≤ hi := by
  unfold clampTo
  omega

theorem clampZone_range (z : Zone) : 1 ≤ (clampZone z).bound ∧ (clampZone z).bound ≤ 65535
    ∧ 10 ≤ (clampZone z).limit ∧ (clampZone z).limit ≤ 400 :=
  have bound := clampTo_range (show 1 ≤ 65535 by decide) z.bound
  have limit := clampTo_range (show 10 ≤ 400 by decide) z.limit
  ⟨bound.1, bound.2, limit.1, limit.2⟩

/-- A zone table in order: one to four zones in their ranges, their boundaries rising (R8). -/
structure ZonesInRange (zones : List Zone) : Prop where
  length : 1 ≤ zones.length ∧ zones.length ≤ 4
  ranges : ∀ z ∈ zones, 1 ≤ z.bound ∧ z.bound ≤ 65535 ∧ 10 ≤ z.limit ∧ z.limit ≤ 400
  rising : (zones.map Zone.bound).Pairwise (· < ·)

theorem rising_zonesAfter (b : Nat) (zones : List Zone) : ((b :: (zonesAfter b zones).map Zone.bound)).Pairwise (· < ·) := by
  rw [← List.isChain_iff_pairwise]
  induction zones generalizing b with
  | nil => exact .singleton b
  | cons z rest ih =>
    unfold zonesAfter
    split
    · next rises => exact .cons_cons rises (ih z.bound)
    · exact .singleton b

theorem zonesAfter_sublist (b : Nat) (zones : List Zone) : (zonesAfter b zones).Sublist zones := by
  induction zones generalizing b with
  | nil => exact .slnil
  | cons z rest ih =>
    unfold zonesAfter
    split
    · exact (ih z.bound).cons_cons z
    · exact List.nil_sublist _

theorem truncate_cons (z : Zone) (rest : List Zone) :
    truncate (z :: rest) = clampZone z :: zonesAfter (clampZone z).bound (rest.map clampZone) := rfl

theorem zonesInRange_truncate (z : Zone) (rest : List Zone) (short : rest.length ≤ 3) : ZonesInRange (truncate (z :: rest)) := by
  rw [truncate_cons]
  have sub := zonesAfter_sublist (clampZone z).bound (rest.map clampZone)
  have length := sub.length_le
  rw [List.length_map] at length
  refine ⟨⟨by simp, by rw [List.length_cons]; omega⟩, ?_, rising_zonesAfter _ _⟩
  intro y mem
  rcases List.mem_cons.1 mem with rfl | mem
  · exact clampZone_range z
  · obtain ⟨x, -, rfl⟩ := List.mem_map.1 (sub.subset mem)
    exact clampZone_range x

theorem zonesInRange_default : ZonesInRange defaultArm.zones := ⟨by decide, by decide, by decide⟩

/-- The numbers of a loaded arm in their ranges (R8, R9). -/
structure ArmInRange (a : ArmConfig) : Prop where
  capacity : 1 ≤ a.capacity ∧ a.capacity ≤ 15
  exitClearance : a.exitClearance ≤ 3000
  quietTime : 10 ≤ a.quietTime ∧ a.quietTime ≤ 600
  zones : ZonesInRange a.zones

theorem armInRange_clampArm (l : List Byte) (b : Nat) : ArmInRange (clampArm (readArm l b)) := by
  by_cases present : (readArm l b).present = true
  · rw [clampArm_present present]
    exact ⟨clampTo_range (by decide) _, (clampTo_range (by decide) _).2, clampTo_range (by decide) _,
      zonesInRange_truncate _ _ (Nat.le_refl 3)⟩
  · rw [clampArm_absent present]
    exact ⟨by decide, by decide, by decide, zonesInRange_default⟩

theorem present_clampArm (a : ArmConfig) : (clampArm a).present = a.present := by
  by_cases present : a.present = true
  · rw [clampArm_present present]
  · rw [clampArm_absent present, Bool.not_eq_true _ |>.mp present]
    rfl

theorem clampArm_attributes {a : ArmConfig} (present : a.present = true) : (clampArm a).neighbour = a.neighbour
    ∧ (clampArm a).inbound = a.inbound ∧ (clampArm a).outbound = a.outbound
    ∧ (clampArm a).kind = if a.neighbour = 0 then .twoWay else a.kind := by
  rw [clampArm_present present]
  exact ⟨rfl, rfl, rfl, rfl⟩

/-- An arm's flow is not changed by the clamps: a spur has none whatever its kind (R10). -/
theorem flows_clampArm {own : Nat} {a : ArmConfig} (present : a.present = true) :
    (FlowsToward own (clampArm a) ↔ FlowsToward own a) ∧ (FlowsAway own (clampArm a) ↔ FlowsAway own a) := by
  obtain ⟨neighbour, -, -, kind⟩ := clampArm_attributes present
  unfold FlowsToward FlowsAway
  rw [neighbour, kind]
  by_cases spur : a.neighbour = 0
  · simp [spur]
  · rw [if_neg spur]
    exact ⟨Iff.rfl, Iff.rfl⟩

/-- The clamps keep what LOADING checks (R14). -/
theorem checked_clamp_iff (c : JunctionConfig) : Checked (clamp c) ↔ Checked c := by
  have presentAt (i : Arm) : ((clamp c).arms.get i).present = (c.arms.get i).present := by
    rw [arms_clamp, present_clampArm]
  have neighbourAt (i : Arm) (here : (c.arms.get i).present = true) :
      ((clamp c).arms.get i).neighbour = (c.arms.get i).neighbour := by
    rw [arms_clamp, (clampArm_attributes here).1]
  have permittedAt (i j : Arm) : (((clamp c).paths.get i).get j).permitted = ((c.paths.get i).get j).permitted := by
    rw [paths_clamp]
  have kindsAt (i : Arm) (here : (c.arms.get i).present = true) :
      ((FlowsToward c.nodeAddress ((clamp c).arms.get i) →
          ((clamp c).arms.get i).inbound = true ∧ ((clamp c).arms.get i).outbound = false)
        ∧ (FlowsAway c.nodeAddress ((clamp c).arms.get i) →
          ((clamp c).arms.get i).outbound = true ∧ ((clamp c).arms.get i).inbound = false))
      ↔ (FlowsToward c.nodeAddress (c.arms.get i) → (c.arms.get i).inbound = true ∧ (c.arms.get i).outbound = false)
        ∧ (FlowsAway c.nodeAddress (c.arms.get i) → (c.arms.get i).outbound = true ∧ (c.arms.get i).inbound = false) := by
    obtain ⟨toward, away⟩ := flows_clampArm (own := c.nodeAddress) here
    obtain ⟨-, inbound, outbound, -⟩ := clampArm_attributes here
    rw [arms_clamp, inbound, outbound, toward, away]
  constructor
  · rintro ⟨address, neighbours, apart, arms, kinds, paths⟩
    simp only [presentAt, permittedAt] at neighbours apart arms kinds paths
    refine ⟨address, fun i here => ?_, fun i j other here there => ?_, arms, fun i here => (kindsAt i here).1 (kinds i here),
      paths⟩
    · have foreign := neighbours i here
      rwa [neighbourAt i here] at foreign
    · have same := apart i j other here there
      rwa [neighbourAt i here, neighbourAt j there] at same
  · rintro ⟨address, neighbours, apart, arms, kinds, paths⟩
    refine ⟨address, ?_, ?_, ?_, ?_, ?_⟩
    · intro i here
      rw [presentAt] at here
      rw [neighbourAt i here]
      exact neighbours i here
    · intro i j other here there
      rw [presentAt] at here there
      rw [neighbourAt i here, neighbourAt j there]
      exact apart i j other here there
    · simp only [presentAt]
      exact arms
    · intro i here
      rw [presentAt] at here
      exact (kindsAt i here).2 (kinds i here)
    · simp only [presentAt, permittedAt]
      exact paths

end Sys2Proof.Image

namespace Sys2Proof.Machine

open Image

/-- Settles O8. -/
theorem loadedConfigurationInRange : Obligations.LoadedConfigurationInRange := by
  refine ⟨fun image => ?_, fun image c loaded => ?_⟩
  · intro one two clamped flag present neighbour kind movement away toward passes zones interval
    have passesAt : Passes image ↔ passes := passes_image_iff image
    exact ⟨fun refused => load_of_not_passes fun h => refused (passesAt.1 h), fun h => load_eq_written (passesAt.2 h)⟩
  · obtain ⟨passed, rfl⟩ := load_eq_some loaded
    have checked := (checked_clamp_iff _).2 passed.checked
    have armAt (i : Arm) : ArmInRange ((clamp (read image)).arms.get i) := by
      rw [arms_clamp, arms_read]
      exact armInRange_clampArm _ _
    have range {lo hi : Nat} (h : lo ≤ hi) (x : Nat) := clampTo_range h x
    have wide : 20 ≤ clampTo 100 1000 (read image).reportInterval := Nat.le_trans (by decide) (range (by decide) _).1
    refine ⟨checked.address, range (by decide) _, (range (by decide) _).2, (range (by decide) _).2, range (by decide) _,
      range (by decide) _, range (by decide) _, (range (by decide) _).2, range (by decide) _, range (by decide) _,
      range (by decide) _, range (by decide) _, range (by decide) _, range (by decide) _, range (by decide) _,
      range (by decide) _, (range (by decide) _).2, range (by decide) _, range (by decide) _, range wide _,
      range (by decide) _, ?classes, ?arms, checked.apart, ?kinds, ?lengths, checked.paths,
      (two_le_presentArms _).2 checked.arms⟩
    case classes =>
      intro k
      rw [classes_clamp]
      exact ⟨(range (by decide) _).1, (range (by decide) _).2, (range (by decide) _).1, (range (by decide) _).2⟩
    case arms =>
      intro i a
      obtain ⟨capacity, exitClearance, quietTime, length, ranges, rising⟩ := armAt i
      refine ⟨capacity, exitClearance, quietTime, ?_, fun here => (checked.neighbours i here).2, length, ranges, rising⟩
      by_cases here : a.present = true
      · exact (checked.neighbours i here).1
      · have default : a = defaultArm := by
          show (clamp (read image)).arms.get i = _
          rw [arms_clamp]
          refine clampArm_absent ?_
          rwa [← present_clampArm, ← arms_clamp]
        rw [default]
        decide
    case kinds =>
      intro i a here
      have here' : ((read image).arms.get i).present = true := by rwa [← present_clampArm, ← arms_clamp]
      obtain ⟨neighbour, -, -, kind⟩ := clampArm_attributes here'
      rw [← arms_clamp] at neighbour kind
      have spur (none' : a.neighbour = 0) : a.kind = .twoWay := kind.trans (if_pos (neighbour.symm.trans none'))
      have named {k : SegKind} (oneWay : a.kind = k) (other : k ≠ .twoWay) : a.neighbour ≠ 0 :=
        fun none' => other (oneWay.symm.trans (spur none'))
      obtain ⟨toward, away⟩ := checked.kinds i here
      refine ⟨spur, ?_, ?_⟩
      · rintro (⟨up, above⟩ | ⟨down, below⟩)
        · exact away ⟨named up (by decide), .inl ⟨up, above⟩⟩
        · exact away ⟨named down (by decide), .inr ⟨down, Nat.lt_asymm below⟩⟩
      · rintro (⟨down, above⟩ | ⟨up, below⟩)
        · exact toward ⟨named down (by decide), .inr ⟨down, above⟩⟩
        · exact toward ⟨named up (by decide), .inl ⟨up, Nat.lt_asymm below⟩⟩
    case lengths =>
      intro i j
      rw [paths_clamp]
      exact range (by decide) _

end Sys2Proof.Machine

/-! ## The bytes of a configuration, offset by offset (R188) -/

namespace Sys2Proof.Image

open Layout

/-- Byte `k` of a list is the low byte of `n`. -/
abbrev OneAt (l : List Byte) (k n : Nat) : Prop := l[k]? = some (byte n)

/-- Bytes `k` and `k + 1` of a list hold `n`, least significant byte first (R184). -/
abbrev TwoAt (l : List Byte) (k n : Nat) : Prop := OneAt l k n ∧ OneAt l (k + 1) (n / 256)

/-- A yes/no value as a number. -/
abbrev yesNo (b : Bool) : Nat := if b then 1 else 0

theorem flag_eq (b : Bool) : flag b = byte (yesNo b) := by cases b <;> rfl

/-- The bytes of a list of records of one length. -/
theorem getElem?_flatMap_of_length {α β : Type} {f : α → List β} {n : Nat} (length : ∀ a, (f a).length = n) (l : List α)
    (k m : Nat) (inside : m < n) : (l.flatMap f)[n * k + m]? = l[k]?.bind fun a => (f a)[m]? := by
  induction l generalizing k with
  | nil => rfl
  | cons a rest ih =>
    rw [List.flatMap_cons]
    cases k with
    | zero =>
      rw [Nat.mul_zero, Nat.zero_add, List.getElem?_append_left (by rw [length]; exact inside)]
      rfl
    | succ k =>
      have step : n * (k + 1) + m = n + (n * k + m) := by rw [Nat.mul_succ]; omega
      have past : n * (k + 1) + m - (f a).length = n * k + m := by rw [length, step]; omega
      rw [List.getElem?_append_right (by rw [length, step]; omega), past, ih]
      rfl

theorem toList_getElem? {α : Type} (q : Quad α) (i : Fin 4) : q.toList[i.val]? = some (q.get i) := by
  fin_cases i <;> rfl

theorem length_two (n : Nat) : (two n).length = 2 := rfl

theorem length_constantBytes (c : JunctionConfig) : (constantBytes c).length = 38 := by
  unfold constantBytes
  simp only [List.length_append, List.length_cons, List.length_nil, length_two]

theorem length_armBytes (a : ArmConfig) : (armBytes a).length = 24 := rfl

theorem length_classPart (c : JunctionConfig) :
    (c.classes.toList.flatMap fun k => byte k.decel :: two k.limit).length = 12 := rfl

theorem length_armPart (c : JunctionConfig) : (c.arms.toList.flatMap armBytes).length = 96 := rfl

theorem length_pathPart (c : JunctionConfig) :
    (pathOrder.flatMap fun p => pathBytes ((c.paths.get p.1).get p.2)).length = 36 := rfl

theorem length_body (c : JunctionConfig) : (body c).length = 182 := by
  rw [body, List.length_append, List.length_append, List.length_append, length_constantBytes, length_classPart, length_armPart,
    length_pathPart]

theorem length_bytes (c : JunctionConfig) : (bytes c).length = 184 := by
  rw [bytes, withCrc16, List.length_append, length_body]
  rfl

theorem take_bytes (c : JunctionConfig) : (bytes c).take 182 = body c :=
  List.take_left' (length_body c)

theorem crc_bytes (c : JunctionConfig) : bytes c = withCrc16 ((bytes c).take 182) := by
  rw [take_bytes]
  rfl

theorem bytes_eq (c : JunctionConfig) : bytes c = constantBytes c
    ++ ((c.classes.toList.flatMap fun k => byte k.decel :: two k.limit)
    ++ (c.arms.toList.flatMap armBytes
    ++ (pathOrder.flatMap (fun p => pathBytes ((c.paths.get p.1).get p.2)) ++ two (crc16 (body c)).toNat))) := by
  simp only [bytes, withCrc16, body, List.append_assoc]

theorem constant_byte (c : JunctionConfig) {k : Nat} (inside : k < 38) : (bytes c)[k]? = (constantBytes c)[k]? := by
  rw [bytes_eq, List.getElem?_append_left (by rw [length_constantBytes]; exact inside)]

theorem class_byte (c : JunctionConfig) (k : Fin 4) {m : Nat} (inside : m < 3) :
    (bytes c)[38 + 3 * k.val + m]? = (byte (c.classes.get k).decel :: two (c.classes.get k).limit)[m]? := by
  have start : 38 + 3 * k.val + m - (constantBytes c).length = 3 * k.val + m := by rw [length_constantBytes]; omega
  rw [bytes_eq, List.getElem?_append_right (by rw [length_constantBytes]; omega), start,
    List.getElem?_append_left (by rw [length_classPart]; omega),
    getElem?_flatMap_of_length (n := 3) (fun _ => rfl) _ _ _ inside, toList_getElem?]
  rfl

theorem arm_byte (c : JunctionConfig) (i : Arm) {m : Nat} (inside : m < 24) :
    (bytes c)[50 + 24 * i.val + m]? = (armBytes (c.arms.get i))[m]? := by
  have start : 50 + 24 * i.val + m - (constantBytes c).length = 12 + (24 * i.val + m) := by
    rw [length_constantBytes]; omega
  have start' : 12 + (24 * i.val + m) - 12 = 24 * i.val + m := by omega
  rw [bytes_eq, List.getElem?_append_right (by rw [length_constantBytes]; omega), start,
    List.getElem?_append_right (by rw [length_classPart]; omega), length_classPart, start',
    List.getElem?_append_left (by rw [length_armPart]; omega),
    getElem?_flatMap_of_length length_armBytes _ _ _ inside, toList_getElem?]
  rfl

theorem path_byte (c : JunctionConfig) {n : Nat} {i j : Arm} (place : pathOrder[n]? = some (i, j)) {m : Nat} (inside : m < 3) :
    (bytes c)[146 + 3 * n + m]? = (pathBytes ((c.paths.get i).get j))[m]? := by
  have start : 146 + 3 * n + m - (constantBytes c).length = 108 + (3 * n + m) := by rw [length_constantBytes]; omega
  have start' : 108 + (3 * n + m) - 12 = 96 + (3 * n + m) := by omega
  have start'' : 96 + (3 * n + m) - 96 = 3 * n + m := by omega
  have last : n < 12 := (List.getElem?_eq_some_iff.1 place).1
  rw [bytes_eq, List.getElem?_append_right (by rw [length_constantBytes]; omega), start,
    List.getElem?_append_right (by rw [length_classPart]; omega), length_classPart, start',
    List.getElem?_append_right (by rw [length_armPart]; omega), length_armPart, start'',
    List.getElem?_append_left (by rw [length_pathPart]; omega),
    getElem?_flatMap_of_length (n := 3) (fun _ => rfl) _ _ _ inside, place]
  rfl

end Sys2Proof.Image

/-! ## The fields of the written configuration (R188) -/

namespace Sys2Proof.Image

open Layout

theorem two_eq (n : Nat) : two n = [byte n, byte (n / 256)] := rfl

theorem constantBytes_eq (c : JunctionConfig) : constantBytes c =
    [byte c.nodeAddress, byte c.xlim, byte (c.xlim / 256), byte c.margin, byte c.tLat, byte (c.tLat / 256),
      byte c.headway, byte (c.headway / 256), byte c.startWindow, byte (c.startWindow / 256), byte c.clearTime,
      byte c.platoon, byte c.skipMax, byte c.directionHold, byte (c.directionHold / 256), byte (yesNo c.crossingProof),
      byte c.crossingQuiet, byte (c.crossingQuiet / 256), byte c.holdSettle, byte (c.holdSettle / 256), byte c.debounce,
      byte c.stuckTime, byte c.carrierSilence, byte (c.carrierSilence / 256), byte (yesNo c.boxFitted),
      byte (modeCode c.walkMode), byte c.walkInterval, byte (c.walkInterval / 256), byte c.walkOpen, byte c.walkClearance,
      byte (c.walkClearance / 256), byte (rateCode c.bitRate), byte c.reportInterval, byte (c.reportInterval / 256),
      byte c.changeSpacing, byte (c.changeSpacing / 256), byte (multipleCode c.silenceMultiple), byte c.refStage] := by
  unfold constantBytes
  rw [flag_eq, flag_eq]
  simp only [two_eq, List.cons_append, List.nil_append]

/-- The junction constants where R188 places them. -/
structure ConstantsAt (l : List Byte) (c : JunctionConfig) : Prop where
  nodeAddress : OneAt l 0 c.nodeAddress
  xlim : TwoAt l 1 c.xlim
  margin : OneAt l 3 c.margin
  tLat : TwoAt l 4 c.tLat
  headway : TwoAt l 6 c.headway
  startWindow : TwoAt l 8 c.startWindow
  clearTime : OneAt l 10 c.clearTime
  platoon : OneAt l 11 c.platoon
  skipMax : OneAt l 12 c.skipMax
  directionHold : TwoAt l 13 c.directionHold
  crossingProof : OneAt l 15 (yesNo c.crossingProof)
  crossingQuiet : TwoAt l 16 c.crossingQuiet
  holdSettle : TwoAt l 18 c.holdSettle
  debounce : OneAt l 20 c.debounce
  stuckTime : OneAt l 21 c.stuckTime
  carrierSilence : TwoAt l 22 c.carrierSilence
  boxFitted : OneAt l 24 (yesNo c.boxFitted)
  walkMode : OneAt l 25 (modeCode c.walkMode)
  walkInterval : TwoAt l 26 c.walkInterval
  walkOpen : OneAt l 28 c.walkOpen
  walkClearance : TwoAt l 29 c.walkClearance
  bitRate : OneAt l 31 (rateCode c.bitRate)
  reportInterval : TwoAt l 32 c.reportInterval
  changeSpacing : TwoAt l 34 c.changeSpacing
  silenceMultiple : OneAt l 36 (multipleCode c.silenceMultiple)
  refStage : OneAt l 37 c.refStage

theorem constantsAt_bytes (c : JunctionConfig) : ConstantsAt (bytes c) c := by
  have at' {k : Nat} (inside : k < 38) {b : Byte} (held : (constantBytes c)[k]? = some b) : (bytes c)[k]? = some b :=
    (constant_byte c inside).trans held
  rw [constantBytes_eq] at at'
  have one {k n : Nat} (inside : k < 38) (held : _[k]? = some (byte n)) : OneAt (bytes c) k n := at' inside held
  have two' {k n : Nat} (inside : k + 1 < 38) (low : _[k]? = some (byte n)) (high : _[k + 1]? = some (byte (n / 256))) :
      TwoAt (bytes c) k n := ⟨at' (Nat.lt_of_succ_lt inside) low, at' inside high⟩
  exact {
    nodeAddress := one (by decide) rfl
    xlim := two' (by decide) rfl rfl
    margin := one (by decide) rfl
    tLat := two' (by decide) rfl rfl
    headway := two' (by decide) rfl rfl
    startWindow := two' (by decide) rfl rfl
    clearTime := one (by decide) rfl
    platoon := one (by decide) rfl
    skipMax := one (by decide) rfl
    directionHold := two' (by decide) rfl rfl
    crossingProof := one (by decide) rfl
    crossingQuiet := two' (by decide) rfl rfl
    holdSettle := two' (by decide) rfl rfl
    debounce := one (by decide) rfl
    stuckTime := one (by decide) rfl
    carrierSilence := two' (by decide) rfl rfl
    boxFitted := one (by decide) rfl
    walkMode := one (by decide) rfl
    walkInterval := two' (by decide) rfl rfl
    walkOpen := one (by decide) rfl
    walkClearance := two' (by decide) rfl rfl
    bitRate := one (by decide) rfl
    reportInterval := two' (by decide) rfl rfl
    changeSpacing := two' (by decide) rfl rfl
    silenceMultiple := one (by decide) rfl
    refStage := one (by decide) rfl }

theorem class_at (c : JunctionConfig) (k : Fin 4) :
    OneAt (bytes c) (38 + 3 * k.val) (c.classes.get k).decel ∧ TwoAt (bytes c) (39 + 3 * k.val) (c.classes.get k).limit := by
  have low : 39 + 3 * k.val = 38 + 3 * k.val + 1 := by omega
  rw [low]
  exact ⟨class_byte c k (m := 0) (by decide), class_byte c k (m := 1) (by decide), class_byte c k (m := 2) (by decide)⟩

theorem path_at (c : JunctionConfig) {n : Nat} {i j : Arm} (place : pathOrder[n]? = some (i, j)) :
    OneAt (bytes c) (146 + 3 * n) (yesNo ((c.paths.get i).get j).permitted)
    ∧ TwoAt (bytes c) (147 + 3 * n) ((c.paths.get i).get j).length := by
  have low : 147 + 3 * n = 146 + 3 * n + 1 := by omega
  have flagAt := path_byte c place (m := 0) (by decide)
  unfold pathBytes at flagAt
  rw [flag_eq] at flagAt
  rw [low]
  exact ⟨flagAt, path_byte c place (m := 1) (by decide), path_byte c place (m := 2) (by decide)⟩

/-- The six flags of an arm as a number (R188). -/
theorem bits_flags (a : ArmConfig) : bits [a.present, a.inbound, a.outbound, a.queue, a.walkway, a.quietProof] =
    yesNo a.present + 2 * yesNo a.inbound + 4 * yesNo a.outbound + 8 * yesNo a.queue + 16 * yesNo a.walkway
      + 32 * yesNo a.quietProof := by
  simp only [bits, yesNo]
  omega

theorem bound_byte (a : ArmConfig) (k : Fin 4) {m : Nat} (inside : m < 2) :
    (armBytes a)[8 + 2 * k.val + m]? = (two (zoneAt a.zones k.val).bound)[m]? := by
  fin_cases k <;> interval_cases m <;> rfl

theorem limit_byte (a : ArmConfig) (k : Fin 4) {m : Nat} (inside : m < 2) :
    (armBytes a)[16 + 2 * k.val + m]? = (two (zoneAt a.zones k.val).limit)[m]? := by
  fin_cases k <;> interval_cases m <;> rfl

/-- An arm's fields where R188 places them from offset `b`. -/
structure ArmAt (l : List Byte) (b : Nat) (a : ArmConfig) : Prop where
  flags : OneAt l b (bits [a.present, a.inbound, a.outbound, a.queue, a.walkway, a.quietProof])
  neighbour : OneAt l (b + 1) a.neighbour
  kind : OneAt l (b + 2) (kindCode a.kind)
  capacity : OneAt l (b + 3) a.capacity
  exitClearance : TwoAt l (b + 4) a.exitClearance
  quietTime : TwoAt l (b + 6) a.quietTime
  bounds : ∀ k : Fin 4, TwoAt l (b + (8 + 2 * k.val)) (zoneAt a.zones k.val).bound
  limits : ∀ k : Fin 4, TwoAt l (b + (16 + 2 * k.val)) (zoneAt a.zones k.val).limit

theorem armAt_of_armBytes {l : List Byte} {b : Nat} {a : ArmConfig}
    (copied : ∀ {m : Nat}, m < 24 → l[b + m]? = (armBytes a)[m]?) : ArmAt l b a := by
  have one {m n : Nat} (inside : m < 24) (held : (armBytes a)[m]? = some (byte n)) : OneAt l (b + m) n :=
    (copied inside).trans held
  have two' {m n : Nat} (inside : m + 1 < 24) (low : (armBytes a)[m]? = some (byte n))
      (high : (armBytes a)[m + 1]? = some (byte (n / 256))) : TwoAt l (b + m) n :=
    ⟨one (Nat.lt_of_succ_lt inside) low, one inside high⟩
  exact {
    flags := one (m := 0) (by decide) rfl
    neighbour := one (by decide) rfl
    kind := one (by decide) rfl
    capacity := one (by decide) rfl
    exitClearance := two' (by decide) rfl rfl
    quietTime := two' (by decide) rfl rfl
    bounds := fun k => two' (by omega) (bound_byte a k (m := 0) (by decide)) (bound_byte a k (m := 1) (by decide))
    limits := fun k => two' (by omega) (limit_byte a k (m := 0) (by decide)) (limit_byte a k (m := 1) (by decide)) }

theorem armAt_bytes (c : JunctionConfig) (i : Arm) : ArmAt (bytes c) (50 + 24 * i.val) (c.arms.get i) :=
  armAt_of_armBytes fun inside => arm_byte c i inside

theorem modeCode_eq (m : WalkMode) : modeCode m = [WalkMode.off, .cyclic, .onDemand].idxOf m := by cases m <;> rfl

theorem rateCode_eq (r : BitRate) : rateCode r = [BitRate.k125, .k250, .k500].idxOf r := by cases r <;> rfl

theorem multipleCode_eq (m : SilenceMultiple) : multipleCode m = [SilenceMultiple.x3, .x5, .x8].idxOf m := by
  cases m <;> rfl

theorem zoneAt_bound (zones : List Zone) (k : Nat) : (zoneAt zones k).bound = zones[k]?.elim 0 Zone.bound := by
  rw [zoneAt, List.getD_eq_getElem?_getD]
  cases zones[k]? <;> rfl

theorem zoneAt_limit (zones : List Zone) (k : Nat) : (zoneAt zones k).limit = zones[k]?.elim 0 Zone.limit := by
  rw [zoneAt, List.getD_eq_getElem?_getD]
  cases zones[k]? <;> rfl

end Sys2Proof.Image

/-! ## A loaded configuration written and read back (R188) -/

namespace Sys2Proof.Image

open Layout

theorem byteAt_of_oneAt {l : List Byte} {k n : Nat} (held : OneAt l k n) (small : n < 256) : byteAt l k = n := by
  rw [byteAt, List.getD_eq_getElem?_getD, held]
  show (BitVec.ofNat 8 n).toNat = n
  rw [BitVec.toNat_ofNat]
  omega

theorem twoAt_of_twoAt {l : List Byte} {k n : Nat} (held : TwoAt l k n) (small : n < 65536) : twoAt l k = n := by
  obtain ⟨low, high⟩ := held
  have lowByte : byteAt l k = n % 256 := by
    rw [byteAt, List.getD_eq_getElem?_getD, low]
    exact BitVec.toNat_ofNat n 8
  rw [twoAt, lowByte, byteAt_of_oneAt high (by omega)]
  omega

theorem clampTo_of_range {lo hi x : Nat} (low : lo ≤ x) (high : x ≤ hi) : clampTo lo hi x = x := by
  unfold clampTo
  omega

theorem clampTo_byteAt {l : List Byte} {k n lo hi : Nat} (held : OneAt l k n) (low : lo ≤ n) (high : n ≤ hi)
    (small : hi < 256) : clampTo lo hi (byteAt l k) = n := by
  rw [byteAt_of_oneAt held (by omega), clampTo_of_range low high]

theorem clampTo_twoAt {l : List Byte} {k n lo hi : Nat} (held : TwoAt l k n) (low : lo ≤ n) (high : n ≤ hi)
    (small : hi < 65536) : clampTo lo hi (twoAt l k) = n := by
  rw [twoAt_of_twoAt held (by omega), clampTo_of_range low high]

theorem yesNo_read {l : List Byte} {k : Nat} {b : Bool} (held : OneAt l k (yesNo b)) : (byteAt l k != 0) = b := by
  rw [byteAt_of_oneAt held (by cases b <;> decide)]
  cases b <;> rfl

theorem kindOf_kindCode (k : SegKind) : kindOf (kindCode k) = k := by cases k <;> rfl

theorem modeOf_modeCode (m : WalkMode) : modeOf (modeCode m) = m := by cases m <;> rfl

theorem rateOf_rateCode (r : BitRate) : rateOf (rateCode r) = r := by cases r <;> rfl

theorem multipleOf_multipleCode (m : SilenceMultiple) : multipleOf (multipleCode m) = m := by cases m <;> rfl

theorem kindCode_lt (k : SegKind) : kindCode k < 256 := by cases k <;> decide

theorem modeCode_lt (m : WalkMode) : modeCode m < 256 := by cases m <;> decide

theorem rateCode_lt (r : BitRate) : rateCode r < 256 := by cases r <;> decide

theorem multipleCode_lt (m : SilenceMultiple) : multipleCode m < 256 := by cases m <;> decide

theorem bits_testBit : ∀ a b c d e f : Bool, bits [a, b, c, d, e, f] < 256 ∧
    (bits [a, b, c, d, e, f]).testBit 0 = a ∧ (bits [a, b, c, d, e, f]).testBit 1 = b
    ∧ (bits [a, b, c, d, e, f]).testBit 2 = c ∧ (bits [a, b, c, d, e, f]).testBit 3 = d
    ∧ (bits [a, b, c, d, e, f]).testBit 4 = e ∧ (bits [a, b, c, d, e, f]).testBit 5 = f := by decide

theorem clampZone_of_range {z : Zone} (range : 1 ≤ z.bound ∧ z.bound ≤ 65535 ∧ 10 ≤ z.limit ∧ z.limit ≤ 400) :
    clampZone z = z := by
  obtain ⟨low, high, slow, fast⟩ := range
  rw [clampZone, clampTo_of_range low high, clampTo_of_range slow fast]

/-- A table beyond its end is written as 0, which the clamp raises to the least boundary: it cannot follow another one, so
the table ends where it did (R8). -/
theorem truncate_written {zones : List Zone} (h : ZonesInRange zones) :
    truncate [zoneAt zones 0, zoneAt zones 1, zoneAt zones 2, zoneAt zones 3] = zones := by
  obtain ⟨⟨some', few⟩, ranges, rising⟩ := h
  have held (z : Zone) (mem : z ∈ zones) : clampZone z = z := clampZone_of_range (ranges z mem)
  have pad : clampZone ⟨0, 0⟩ = ⟨1, 10⟩ := rfl
  have ends (z : Zone) (mem : z ∈ zones) : ¬z.bound < 1 := Nat.not_lt.2 (ranges z mem).1
  rw [truncate_four]
  match zones with
  | [] => exact absurd some' (by decide)
  | [z0] => simp [zoneAt, held, pad, ends]
  | [z0, z1] =>
    have r01 : z0.bound < z1.bound := by simpa using rising
    simp [zoneAt, held, pad, ends, r01]
  | [z0, z1, z2] =>
    simp only [List.map_cons, List.map_nil, List.pairwise_cons, List.mem_cons, List.not_mem_nil] at rising
    have r01 : z0.bound < z1.bound := rising.1 _ (by simp)
    have r12 : z1.bound < z2.bound := rising.2.1 _ (by simp)
    simp [zoneAt, held, pad, ends, r01, r12]
  | [z0, z1, z2, z3] =>
    simp only [List.map_cons, List.map_nil, List.pairwise_cons, List.mem_cons, List.not_mem_nil] at rising
    have r01 : z0.bound < z1.bound := rising.1 _ (by simp)
    have r12 : z1.bound < z2.bound := rising.2.1 _ (by simp)
    have r23 : z2.bound < z3.bound := rising.2.2.1 _ (by simp)
    simp [zoneAt, held, r01, r12, r23]
  | _ :: _ :: _ :: _ :: _ :: rest => exact absurd few (by simp)

theorem zoneAt_small {zones : List Zone} (h : ZonesInRange zones) (k : Nat) :
    (zoneAt zones k).bound < 65536 ∧ (zoneAt zones k).limit < 65536 := by
  rw [zoneAt, List.getD_eq_getElem?_getD]
  cases held : zones[k]? with
  | none => exact ⟨by decide, by decide⟩
  | some z =>
    have ⟨_, high, _, fast⟩ := h.ranges z (List.mem_of_getElem? held)
    exact ⟨Nat.lt_succ_of_le high, Nat.lt_of_le_of_lt fast (by decide)⟩

/-- An arm of a configuration that LOADING gave: its numbers in range, a spur TWO_WAY, an absent arm as in the default
configuration. -/
structure ArmLoaded (a : ArmConfig) : Prop extends ArmInRange a where
  neighbour : a.neighbour < 256
  spur : a.neighbour = 0 → a.kind = .twoWay
  absent : ¬a.present = true → a = defaultArm

theorem zones_readArm {l : List Byte} {b : Nat} {a : ArmConfig} (h : ArmAt l b a) (loaded : ArmLoaded a) :
    (readArm l b).zones = [zoneAt a.zones 0, zoneAt a.zones 1, zoneAt a.zones 2, zoneAt a.zones 3] := by
  have zone (k : Fin 4) : Zone.mk (twoAt l (b + (8 + 2 * k.val))) (twoAt l (b + (16 + 2 * k.val))) = zoneAt a.zones k.val := by
    obtain ⟨bound, limit⟩ := zoneAt_small loaded.zones k.val
    rw [twoAt_of_twoAt (h.bounds k) bound, twoAt_of_twoAt (h.limits k) limit]
  have zone0 : Zone.mk (twoAt l (b + 8)) (twoAt l (b + 16)) = zoneAt a.zones 0 := zone 0
  have zone1 : Zone.mk (twoAt l (b + 10)) (twoAt l (b + 18)) = zoneAt a.zones 1 := zone 1
  have zone2 : Zone.mk (twoAt l (b + 12)) (twoAt l (b + 20)) = zoneAt a.zones 2 := zone 2
  have zone3 : Zone.mk (twoAt l (b + 14)) (twoAt l (b + 22)) = zoneAt a.zones 3 := zone 3
  rw [readArm, zone0, zone1, zone2, zone3]

theorem clampArm_written {l : List Byte} {b : Nat} {a : ArmConfig} (h : ArmAt l b a) (loaded : ArmLoaded a) :
    clampArm (readArm l b) = a := by
  obtain ⟨small, present, inbound, outbound, queue, walkway, quietProof⟩ :=
    bits_testBit a.present a.inbound a.outbound a.queue a.walkway a.quietProof
  have flags := byteAt_of_oneAt h.flags small
  rw [← flags] at present inbound outbound queue walkway quietProof
  have presentAt : (readArm l b).present = a.present := present
  by_cases here : a.present = true
  · have neighbour := byteAt_of_oneAt h.neighbour loaded.neighbour
    have kind : (if byteAt l (b + 1) = 0 then .twoWay else kindOf (byteAt l (b + 2))) = a.kind := by
      rw [neighbour, byteAt_of_oneAt h.kind (kindCode_lt _), kindOf_kindCode]
      split
      · next spur => exact (loaded.spur spur).symm
      · rfl
    have capacity := clampTo_byteAt h.capacity loaded.capacity.1 loaded.capacity.2 (by decide)
    have exitClearance := clampTo_twoAt h.exitClearance (Nat.zero_le _) loaded.exitClearance (by decide)
    have quietTime := clampTo_twoAt h.quietTime loaded.quietTime.1 loaded.quietTime.2 (by decide)
    have zones : truncate (readArm l b).zones = a.zones := by
      rw [zones_readArm h loaded, truncate_written loaded.zones]
    rw [clampArm_present (presentAt.trans here), zones]
    show ArmConfig.mk ((byteAt l b).testBit 0) ((byteAt l b).testBit 1) ((byteAt l b).testBit 2) ((byteAt l b).testBit 3)
      ((byteAt l b).testBit 4) ((byteAt l b).testBit 5) (byteAt l (b + 1))
      (if byteAt l (b + 1) = 0 then .twoWay else kindOf (byteAt l (b + 2))) (clampTo 1 15 (byteAt l (b + 3)))
      (clampTo 0 3000 (twoAt l (b + 4))) (clampTo 10 600 (twoAt l (b + 6))) a.zones = a
    rw [present, inbound, outbound, queue, walkway, quietProof, kind, neighbour, capacity, exitClearance, quietTime]
  · rw [clampArm_absent (by rwa [presentAt]), loaded.absent here]

end Sys2Proof.Image

/-! ## READ CONFIG's bytes pass LOADING again -/

namespace Sys2Proof.Image

open Layout

theorem pathOrder_pathIndex : ∀ i j : Arm, i ≠ j → pathOrder[pathIndex i j]? = some (i, j) := by decide

theorem armLoaded_of_load {image : List Byte} {c : JunctionConfig} (loaded : load image = some c) (i : Arm) :
    ArmLoaded (c.arms.get i) := by
  obtain ⟨passed, rfl⟩ := load_eq_some loaded
  have checked := (checked_clamp_iff _).2 passed.checked
  have range : ArmInRange ((clamp (read image)).arms.get i) := by
    rw [arms_clamp, arms_read]
    exact armInRange_clampArm _ _
  by_cases here : ((read image).arms.get i).present = true
  · have here' : ((clamp (read image)).arms.get i).present = true := by rwa [arms_clamp, present_clampArm]
    obtain ⟨neighbour, -, -, kind⟩ := clampArm_attributes here
    rw [← arms_clamp] at neighbour kind
    exact { range with
      neighbour := Nat.lt_of_le_of_lt (checked.neighbours i here').1 (by decide)
      spur := fun spur => kind.trans (if_pos (neighbour.symm.trans spur))
      absent := fun absent => absurd here' absent }
  · have default : (clamp (read image)).arms.get i = defaultArm := by rw [arms_clamp, clampArm_absent here]
    exact { range with
      neighbour := by rw [default]; decide
      spur := fun _ => by rw [default]; rfl
      absent := fun _ => default }

/-- A movement from an arm to itself is never written (R188). -/
theorem path_self_of_load {image : List Byte} {c : JunctionConfig} (loaded : load image = some c) (i : Arm) :
    (c.paths.get i).get i = defaultPath := by
  obtain ⟨-, rfl⟩ := load_eq_some loaded
  rw [paths_clamp, paths_read, if_pos rfl]
  rfl

/-- A loaded configuration written in any bytes by R188 is what they give, read and clamped. -/
theorem clamp_read_of_written {image l : List Byte} {c : JunctionConfig} (loaded : load image = some c)
    (written : ConstantsAt l c)
    (classAt : ∀ k : Fin 4, OneAt l (38 + 3 * k.val) (c.classes.get k).decel ∧ TwoAt l (39 + 3 * k.val) (c.classes.get k).limit)
    (armAt : ∀ i : Arm, ArmAt l (50 + 24 * i.val) (c.arms.get i))
    (pathAt : ∀ i j : Arm, i ≠ j → OneAt l (146 + 3 * pathIndex i j) (yesNo ((c.paths.get i).get j).permitted)
      ∧ TwoAt l (147 + 3 * pathIndex i j) ((c.paths.get i).get j).length) : clamp (read l) = c := by
  have arms := armLoaded_of_load loaded
  have self := path_self_of_load loaded
  obtain ⟨address, xlim, margin, tLat, headway, startWindow, clearTime, platoon, skipMax, directionHold, crossingQuiet,
    holdSettle, debounce, stuckTime, carrierSilence, walkInterval, walkOpen, walkClearance, reportInterval, changeSpacing,
    refStage, classes, -, -, -, lengths, -, -⟩ := Machine.loadedConfigurationInRange.2 image c loaded
  have interval := clampTo_twoAt written.reportInterval reportInterval.1 reportInterval.2 (by decide)
  refine eq_of_fields ?nodeAddress
    (clampTo_twoAt written.xlim xlim.1 xlim.2 (by decide))
    (clampTo_byteAt written.margin (Nat.zero_le _) margin (by decide))
    (clampTo_twoAt written.tLat (Nat.zero_le _) tLat (by decide))
    (clampTo_twoAt written.headway headway.1 headway.2 (by decide))
    (clampTo_twoAt written.startWindow startWindow.1 startWindow.2 (by decide))
    (clampTo_byteAt written.clearTime clearTime.1 clearTime.2 (by decide))
    (clampTo_byteAt written.platoon (Nat.zero_le _) platoon (by decide))
    (clampTo_byteAt written.skipMax skipMax.1 skipMax.2 (by decide))
    (clampTo_twoAt written.directionHold directionHold.1 directionHold.2 (by decide))
    (yesNo_read written.crossingProof)
    (clampTo_twoAt written.crossingQuiet crossingQuiet.1 crossingQuiet.2 (by decide))
    (clampTo_twoAt written.holdSettle holdSettle.1 holdSettle.2 (by decide))
    (clampTo_byteAt written.debounce debounce.1 debounce.2 (by decide))
    (clampTo_byteAt written.stuckTime stuckTime.1 stuckTime.2 (by decide))
    (clampTo_twoAt written.carrierSilence carrierSilence.1 carrierSilence.2 (by decide))
    (yesNo_read written.boxFitted)
    ?walkMode
    (clampTo_twoAt written.walkInterval walkInterval.1 walkInterval.2 (by decide))
    (clampTo_byteAt written.walkOpen (Nat.zero_le _) walkOpen (by decide))
    (clampTo_twoAt written.walkClearance walkClearance.1 walkClearance.2 (by decide))
    ?bitRate interval ?changeSpacing ?silenceMultiple
    (clampTo_byteAt written.refStage refStage.1 refStage.2 (by decide))
    ?classes ?arms ?paths
  case nodeAddress => exact byteAt_of_oneAt written.nodeAddress (Nat.lt_of_le_of_lt address.2 (by decide))
  case walkMode =>
    show modeOf (byteAt l 25) = _
    rw [byteAt_of_oneAt written.walkMode (modeCode_lt _), modeOf_modeCode]
  case bitRate =>
    show rateOf (byteAt l 31) = _
    rw [byteAt_of_oneAt written.bitRate (rateCode_lt _), rateOf_rateCode]
  case changeSpacing =>
    show clampTo 20 (clampTo 100 1000 (twoAt l 32)) (twoAt l 34) = _
    rw [interval]
    exact clampTo_twoAt written.changeSpacing changeSpacing.1 changeSpacing.2
      (Nat.lt_of_le_of_lt reportInterval.2 (by decide))
  case silenceMultiple =>
    show multipleOf (byteAt l 36) = _
    rw [byteAt_of_oneAt written.silenceMultiple (multipleCode_lt _), multipleOf_multipleCode]
  case classes =>
    intro k
    obtain ⟨decelAt, limitAt⟩ := classAt k
    obtain ⟨least, most, slow, fast⟩ := classes k
    have class' : (read l).classes.get k = ⟨byteAt l (38 + 3 * k.val), twoAt l (39 + 3 * k.val)⟩ :=
      Quad.get_build _ k
    rw [classes_clamp, class', clampTo_byteAt decelAt least most (by decide), clampTo_twoAt limitAt slow fast (by decide)]
  case arms =>
    intro i
    rw [arms_clamp, arms_read]
    exact clampArm_written (armAt i) (arms i)
  case paths =>
    intro i j
    rw [paths_clamp, paths_read]
    by_cases same : i = j
    · rw [if_pos same, ← same, self]
      rfl
    · obtain ⟨permittedAt, lengthAt⟩ := pathAt i j same
      rw [Nat.add_right_comm 146 1] at lengthAt
      rw [if_neg same, readPath, yesNo_read permittedAt, clampTo_twoAt lengthAt (lengths i j).1 (lengths i j).2 (by decide)]

/-- READ CONFIG's bytes, read and clamped, are the loaded configuration. -/
theorem clamp_read_bytes {image : List Byte} {c : JunctionConfig} (loaded : load image = some c) :
    clamp (read (bytes c)) = c :=
  clamp_read_of_written loaded (constantsAt_bytes c) (class_at c) (armAt_bytes c)
    fun i j other => path_at c (pathOrder_pathIndex i j other)

theorem passes_bytes {image : List Byte} {c : JunctionConfig} (loaded : load image = some c) : Passes (bytes c) := by
  refine ⟨length_bytes c, crc_bytes c, (checked_clamp_iff _).1 ?_⟩
  rw [clamp_read_bytes loaded]
  obtain ⟨passed, rfl⟩ := load_eq_some loaded
  exact (checked_clamp_iff _).2 passed.checked

end Sys2Proof.Image

namespace Sys2Proof.Machine

open Image

/-- Settles O9. -/
theorem writtenBackConfigurationLoadsTheSame : Obligations.WrittenBackConfigurationLoadsTheSame := by
  refine ⟨fun image c loaded => ⟨length_bytes c, ?_⟩, fun c => ?_⟩
  · rw [load_of_passes (passes_bytes loaded), clamp_read_bytes loaded]
  · intro one two yes
    obtain ⟨nodeAddress, xlim, margin, tLat, headway, startWindow, clearTime, platoon, skipMax, directionHold, crossingProof,
      crossingQuiet, holdSettle, debounce, stuckTime, carrierSilence, boxFitted, walkMode, walkInterval, walkOpen,
      walkClearance, bitRate, reportInterval, changeSpacing, silenceMultiple, refStage⟩ := constantsAt_bytes c
    rw [modeCode_eq] at walkMode
    rw [rateCode_eq] at bitRate
    rw [multipleCode_eq] at silenceMultiple
    refine ⟨length_bytes c, crc_bytes c, nodeAddress, xlim, margin, tLat, headway, startWindow, clearTime, platoon, skipMax,
      directionHold, crossingProof, crossingQuiet, holdSettle, debounce, stuckTime, carrierSilence, boxFitted, walkMode,
      walkInterval, walkOpen, walkClearance, bitRate, reportInterval, changeSpacing, silenceMultiple, refStage, class_at c,
      ?arms, fun n i j place => path_at c place⟩
    case arms =>
      intro i a
      obtain ⟨flags, neighbour, kind, capacity, exitClearance, quietTime, bounds, limits⟩ := armAt_bytes c i
      have offset (m n : Nat) : m + n + 24 * i.val = m + 24 * i.val + n := Nat.add_right_comm m n _
      rw [bits_flags] at flags
      rw [Machine.kindCode_eq] at kind
      rw [← offset] at neighbour kind capacity exitClearance quietTime
      refine ⟨flags, neighbour, kind, capacity, exitClearance, quietTime, fun k => ?_⟩
      have bound := bounds k
      have limit := limits k
      rw [zoneAt_bound, ← Nat.add_assoc, ← offset] at bound
      rw [zoneAt_limit, ← Nat.add_assoc, ← offset] at limit
      exact ⟨bound, limit⟩

end Sys2Proof.Machine
